-- ==== Sys2Proof/Word.lean ====
section
/-! DEFINITION. The words of the machine: 32-bit host words (R12, R43) and bytes (R7). -/

namespace Sys2Proof

/-- A host word: every host access moves exactly 32 bits (R43). -/
abbrev Word := BitVec 32

/-- A byte: 8 bits (R7). -/
abbrev Byte := BitVec 8

end Sys2Proof
end

