-- ==== Sys2Proof/Config.lean ====
section
/-! DEFINITION. The implementation parameters (R6) and the free values: what the spec fixes is a number here,
what it leaves OPEN or unspecified is an opaque constant, of which no proof can know a value. -/

namespace Sys2Proof.Config

/-- FRAM_SIZE: valid FRAM addresses are `[0, 32768)` (R6, R36). -/
def framSize : Nat := 32768

/-- FRAM_DATA_SIZE: bytes in each buffer; also the greatest legal LEN (R6, R21, R22). -/
def bufferSize : Nat := 1024

/-- The greatest SCLK frequency, in Hz (R6, R68). -/
def maxSclkHz : Nat := 33000000

/-- SLEEP_OPCODE: the wire opcode of SLEEP, a build parameter with no default (R6, R56; D19, I1; log 1). -/
opaque sleepOpcode : Byte

/-- F_CLK in Hz: OPEN, any value (R6; D22, I5; log 2). -/
opaque clkHz : Nat

/-- T_SETTLE: OPEN duration of WAIT(SETTLE) (R6, R73; D21, I2; log 2). -/
opaque tSettle : Nat

/-- T_WAKE: OPEN duration of WAIT(WAKE) (R6, R73; D21, I3; log 2). -/
opaque tWake : Nat

/-- T_CSH: OPEN lower bound on the chip-select high time between frames (R6, R72; D21, I4; log 2). -/
opaque tCsh : Nat

/-- FREE VALUE. The `n`-th byte received on `miso` that no scripted device answer supplies: "any byte, chosen anew for
each `Xfer`" (R49; I7; log 3). -/
opaque freeMiso : Nat → Byte

/-- FREE VALUE. What byte `j` of WRBUF holds after power-on number `n`, a fresh draw at each (R21; I13; log 4). -/
opaque powerOnWrbuf : Nat → Nat → Byte

/-- FREE VALUE. What byte `j` of RDBUF holds after power-on number `n`, a fresh draw at each (R22; I13; log 4). -/
opaque powerOnRdbuf : Nat → Nat → Byte

/-- FREE VALUE. What the reference device's array holds at an address to which this machine has written nothing
(R50: non-volatile, no source gives its contents; log 5). -/
opaque framContents : Nat → Byte

/-- FREE VALUE. The bits 7:2 of the reference device's status register at a power-up, of which R50 gives bit 1 alone
(log 21); the argument is the free-value counter. -/
opaque powerUpStatus : Nat → Byte

/-- FREE VALUE. The `new_status` of the reference device's WRSR row (R52) where the frame brought no such byte: a SLEEP
frame under SLEEP_OPCODE = 0x01, or a WRSR frame cut short (log 16). The argument counts the device's status writes. -/
opaque missingStatus : Nat → Byte

end Sys2Proof.Config
end

