-- ==== Sys2Proof/Syntax.lean ====
section
/-! DEFINITION. The syntax: the nine host commands and the reserved command words (R57, R59), the eight wire frames
(R55), and the two kinds of code word that carry them. -/

namespace Sys2Proof

/-- The eight SPI frames the block can send, named by their wire opcodes (R55, R56). -/
inductive WireOp where
  | wren | wrdi | rdsr | wrsr | read | write | rdid | sleep
  deriving DecidableEq, Repr

/-- What the sequencer latches in `s.op`: one of nine commands, or ILLEGAL (R26). -/
inductive Op where
  | wren | wrdi | rdsr | wrsr | read | write | rdid | sleep | writePage | illegal
  deriving DecidableEq, Repr

/-- The instructions: one constructor per row of the opcode table. The nine host commands are written to CMD; the eight
`wire…` rows are frames, selected by the first byte the block sends in a chip-select transaction; `illegal w` is a
reserved command word `w`. No command carries an operand: operands come from registers (R54, R60). -/
inductive Instr where
  | wren | wrdi | rdsr | wrsr | read | write | rdid | sleep | writePage
  | wireWren | wireWrdi | wireRdsr | wireWrsr | wireRead | wireWrite | wireRdid | wireSleep
  | illegal (w : Word)
  deriving DecidableEq, Repr

/-- A code word of one of the two encodings: a 32-bit CMD word (R54), or the opcode byte of a frame (R55). -/
inductive Code where
  | cmd (w : Word)
  | wire (b : Byte)
  deriving DecidableEq, Repr

/-- The frame instruction of a wire opcode. -/
def WireOp.instr : WireOp → Instr
  | .wren => .wireWren
  | .wrdi => .wireWrdi
  | .rdsr => .wireRdsr
  | .wrsr => .wireWrsr
  | .read => .wireRead
  | .write => .wireWrite
  | .rdid => .wireRdid
  | .sleep => .wireSleep

/-- The command whose body is that one frame (R57: every command but WRITE_PAGE is a single frame). -/
def WireOp.command : WireOp → Op
  | .wren => .wren
  | .wrdi => .wrdi
  | .rdsr => .rdsr
  | .wrsr => .wrsr
  | .read => .read
  | .write => .write
  | .rdid => .rdid
  | .sleep => .sleep

/-- The instruction the sequencer runs for a latched command. ILLEGAL keeps no word (R26), so the word here is a
representative; the meaning of `illegal` does not depend on it (R88). -/
def Op.instr : Op → Instr
  | .wren => .wren
  | .wrdi => .wrdi
  | .rdsr => .rdsr
  | .wrsr => .wrsr
  | .read => .read
  | .write => .write
  | .rdid => .rdid
  | .sleep => .sleep
  | .writePage => .writePage
  | .illegal => .illegal 0

/-- What the latch `s.op` records of a decoded command word (R26, R58). The frame rows are no command words: `none`. -/
def Instr.op? : Instr → Option Op
  | .wren => some .wren
  | .wrdi => some .wrdi
  | .rdsr => some .rdsr
  | .wrsr => some .wrsr
  | .read => some .read
  | .write => some .write
  | .rdid => some .rdid
  | .sleep => some .sleep
  | .writePage => some .writePage
  | .illegal _ => some .illegal
  | .wireWren | .wireWrdi | .wireRdsr | .wireWrsr | .wireRead | .wireWrite | .wireRdid | .wireSleep => none

/-- The frame of a frame row; the command rows have none. -/
def Instr.wire? : Instr → Option WireOp
  | .wireWren => some .wren
  | .wireWrdi => some .wrdi
  | .wireRdsr => some .rdsr
  | .wireWrsr => some .wrsr
  | .wireRead => some .read
  | .wireWrite => some .write
  | .wireRdid => some .rdid
  | .wireSleep => some .sleep
  | .wren | .wrdi | .rdsr | .wrsr | .read | .write | .rdid | .sleep | .writePage | .illegal _ => none

end Sys2Proof
end

