-- ==== Sys2Proof/WellFormed.lean ====
section
/-! DEFINITION. Well-formed instructions: `illegal w` names a reserved command word and no other (R58, R59). -/

namespace Sys2Proof

/-- The word is reserved: RSVD is not zero, or OP is not one of 0x1 to 0x9 (R58, R59). -/
def reservedWord (w : Word) : Bool :=
  w.extractLsb' 4 28 != 0 || !(decide (1 ≤ (w.extractLsb' 0 4).toNat) && decide ((w.extractLsb' 0 4).toNat ≤ 9))

/-- Every row but ILLEGAL has no operand; ILLEGAL stands for the reserved words only. -/
def Instr.wf : Instr → Bool
  | .illegal w => reservedWord w
  | .wren | .wrdi | .rdsr | .wrsr | .read | .write | .rdid | .sleep | .writePage => true
  | .wireWren | .wireWrdi | .wireRdsr | .wireWrsr | .wireRead | .wireWrite | .wireRdid | .wireSleep => true

end Sys2Proof
end

