-- ==== Sys2Proof/Decode.lean ====
section
/-! DEFINITION. The decoders of the two encodings, total, and the encoder; the host's table numbering on top. -/

namespace Sys2Proof

/-- Why a code word is refused. -/
inductive DecodeError where
  /-- The byte is no wire opcode: the block sends no such first byte (R56). -/
  | unknownWireOpcode (b : Byte)
  deriving DecidableEq, Repr

/-- RSVD = CMD[31:4] (R54). -/
def cmdRsvd (w : Word) : BitVec 28 := w.extractLsb' 4 28

/-- OP = CMD[3:0] (R54). -/
def cmdOp (w : Word) : BitVec 4 := w.extractLsb' 0 4

/-- `Decode(w)` (R58): total, every word is one of the nine commands or reserved. -/
def decodeCommand (w : Word) : Instr :=
  if cmdRsvd w = 0 then
    match (cmdOp w).toNat with
    | 1 => .wren
    | 2 => .wrdi
    | 3 => .rdsr
    | 4 => .wrsr
    | 5 => .read
    | 6 => .write
    | 7 => .rdid
    | 8 => .sleep
    | 9 => .writePage
    | _ => .illegal w
  else .illegal w

/-- `Decode(w)` as the latch keeps it (R26, R58). -/
def decodeOp (w : Word) : Op := (decodeCommand w).op?.getD .illegal

/-- The frame a first byte selects (R56). SLEEP_OPCODE comes last: a value that collides with another opcode selects
that other opcode's row (conflict C1, R52). -/
def decodeWire (b : Byte) : Option WireOp :=
  match b.toNat with
  | 0x06 => some .wren
  | 0x04 => some .wrdi
  | 0x05 => some .rdsr
  | 0x01 => some .wrsr
  | 0x03 => some .read
  | 0x02 => some .write
  | 0x9F => some .rdid
  | _ => if b = Config.sleepOpcode then some .sleep else none

/-- The decoder of both encodings. -/
def decode : Code → Except DecodeError Instr
  | .cmd w => .ok (decodeCommand w)
  | .wire b =>
    match decodeWire b with
    | some op => .ok op.instr
    | none => .error (.unknownWireOpcode b)

/-- The opcode byte of each frame (R55, R56). -/
def WireOp.opcode : WireOp → Byte
  | .wren => 0x06
  | .wrdi => 0x04
  | .rdsr => 0x05
  | .wrsr => 0x01
  | .read => 0x03
  | .write => 0x02
  | .rdid => 0x9F
  | .sleep => Config.sleepOpcode

/-- SLEEP_OPCODE differs from the seven opcodes the source gives. The block does not need it (R56); a reader of the
wire does, to tell SLEEP frames apart (conflict C1). -/
def sleepOpcodeFresh : Bool :=
  Config.sleepOpcode != 0x06 && Config.sleepOpcode != 0x04 && Config.sleepOpcode != 0x05 && Config.sleepOpcode != 0x01 &&
    Config.sleepOpcode != 0x03 && Config.sleepOpcode != 0x02 && Config.sleepOpcode != 0x9F

/-- The words of an instruction: the CMD word of a command is `zext_32(OP)` (R57), the code of a frame its first byte
(R55). -/
def encode : Instr → Code
  | .wren => .cmd 0x00000001
  | .wrdi => .cmd 0x00000002
  | .rdsr => .cmd 0x00000003
  | .wrsr => .cmd 0x00000004
  | .read => .cmd 0x00000005
  | .write => .cmd 0x00000006
  | .rdid => .cmd 0x00000007
  | .sleep => .cmd 0x00000008
  | .writePage => .cmd 0x00000009
  | .illegal w => .cmd w
  | .wireWren => .wire 0x06
  | .wireWrdi => .wire 0x04
  | .wireRdsr => .wire 0x05
  | .wireWrsr => .wire 0x01
  | .wireRead => .wire 0x03
  | .wireWrite => .wire 0x02
  | .wireRdid => .wire 0x9F
  | .wireSleep => .wire Config.sleepOpcode

/-- The code word the opcode table's numbering gives: a row of 32 bits is a CMD word, one of 8 bits the first byte of
a frame; there is no third length (R54, R61). -/
def tableCode (nbits w : Nat) : Option Code :=
  if nbits = 32 then some (.cmd (BitVec.ofNat 32 w))
  else if nbits = 8 then some (.wire (BitVec.ofNat 8 w))
  else none

/-- The instruction the decoder reads from a table row's bits. -/
def decodeTableWord (nbits w : Nat) : Option Instr :=
  match tableCode nbits w with
  | some c =>
    match decode c with
    | .ok i => some i
    | .error _ => none
  | none => none

end Sys2Proof
end

