-- ==== Sys2Proof/Machine/State.lean ====
section
/-! DEFINITION. The machine's state as plain data: the registers, buffers, internal state and pins of the block (R11 to
R30), the two outside agents (the host's turns and the device), and the trace of bus events; the state after power-on. -/

namespace Sys2Proof.Machine

/-- The write-enable-latch FSM, `s.wel` (R24). -/
inductive Wel where
  | clear | requested | verified
  deriving DecidableEq, Repr

/-- The result codes of STATUS.RESULT; codes 5 to 7 are never produced and have no constructor (R14, R100; I22). -/
inductive Result where
  | ok | addressOutOfRange | writeNotEnabled | deviceTimeout | illegalCommand
  deriving DecidableEq, Repr

/-- `s.phase`, the sequencer's position in its command (R27). -/
inductive Phase where
  | idle | accepted | waking | framing | reading | identifying | writeEnabling | writeEnableVerified | writing | polling
  | settling
  deriving DecidableEq, Repr

/-- The two waits (R73). -/
inductive WaitKind where
  | wake | settle
  deriving DecidableEq, Repr

/-- The fields of CFG (R17). -/
structure Cfg where
  pollEn : Bool
  pollMax : Byte
  idLen : BitVec 4
  clkDiv : Byte
  deriving DecidableEq, Repr

/-- A byte memory: (address, byte) pairs, addresses strictly rising; an address with no entry has not been written. -/
abbrev Memory := List Host.Cell

/-- Bytes `0 … 1023` of a buffer, as written since power-on (R21, R22). -/
abbrev Buffer := Memory

/-- One host access at a word index (R37). -/
inductive HostAccess where
  | read (k : BitVec 10)
  | write (k : BitVec 10) (w : Word)
  deriving DecidableEq, Repr

/-- One turn of the interleaving (R45; D36): an atomic host access, an atomic sequencer step, the host's WAITIDLE loop
(R63), a cycle with `rst_n` = 0 (R113), a power cycle of the block (R111, R112), or one of the device (R50; log 21). -/
inductive Turn where
  | sequencer
  | host (a : HostAccess)
  | waitIdle
  | reset
  | powerOn
  | devicePowerUp
  deriving DecidableEq, Repr

/-- One event of a bus trace, in the notation of R9: chip-select falls or rises, a byte sent whose answer is discarded,
a byte exchanged whose answer is kept, a wait. -/
inductive BusEvent where
  | csDown
  | csUp
  | sent (o : Byte)
  | exchanged (o i : Byte)
  | wait (kind : WaitKind)
  deriving DecidableEq, Repr

/-- The reference device (R50): its array, status register, sleep flag and ID bytes, and the frame in progress: the
opcode received, the bytes received so far (`pos`), the address, the data bytes in order. `ignoring` says that the
transaction is ignored up to CS↑ (R51). `statusWrites` counts the WRSR frames that wrote the status register, the model's
own counter for free values (log 16). -/
structure RefDevice where
  arr : Memory
  sr : Byte
  asleep : Bool
  id : Vector Byte 16
  ignoring : Bool
  cmd : Option WireOp
  pos : Nat
  a : BitVec 16
  data : List Byte
  statusWrites : Nat
  deriving DecidableEq, Repr

/-- The agent on the far side of the bus: an oracle that answers the next `Xfer`s with the listed bytes and then with
free values (R49), or the reference device (R50). -/
inductive Device where
  | oracle (answers : List Byte)
  | reference (r : RefDevice)
  deriving DecidableEq, Repr

/-- Everything the spec gives the machine. INVENTORY.md lists each field with its rule and reset value. -/
structure State where
  -- STATUS flags (R14)
  busy : Bool
  done : Bool
  result : Result
  misuse : Bool
  -- operand and result registers (R15 to R20)
  addr : Word
  len : BitVec 11
  cfg : Cfg
  wrsrData : Byte
  lastSr : Byte
  pollCount : BitVec 9
  -- buffers (R21, R22)
  wrbuf : Buffer
  rdbuf : Buffer
  -- internal state (R24 to R29); `frame` and `pos` are the position within the phase (R27)
  wel : Wel
  wakeNeeded : Bool
  op : Op
  phase : Phase
  frame : WireOp
  pos : Nat
  k : BitVec 9
  isOpen : Bool
  -- output pins (R30)
  csN : Bool
  sclk : Bool
  mosi : Bool
  hrdata : Word
  -- the outside agents (R11), the free-value counter, how often the block was powered on again, the observed trace (R9)
  device : Device
  draws : Nat
  powerOns : Nat
  schedule : List Turn
  trace : List BusEvent
  deriving DecidableEq, Repr

/-- The bus trace in time order; the field holds the newest event first. -/
def State.busTrace (s : State) : List BusEvent := s.trace.reverse

/-- Why the machine stops. The spec gives this block no fault (R99: errors are results). -/
inductive Fault where
  /-- Raised by a meaning asked to run at a position that is not one of its instruction's own (R27): no run reaches such a
  state (R35). SAFE: the model stops where the spec says nothing. -/
  | strayPosition
  deriving DecidableEq, Repr

/-- Why the model declines an instruction. -/
inductive Refusal where
  /-- Raised by `exec` alone, for an instruction that has no meaning yet. SAFE: the model stops. No arm uses it. -/
  | notModelled (mnemonic : String)
  deriving DecidableEq, Repr

/-- The outcome of a step of this machine. -/
abbrev Out := Host.Outcome State Fault Refusal

/-- CFG after reset, 0xFF04FF01 (R17). -/
def Cfg.reset : Cfg where
  pollEn := true
  pollMax := 0xFF
  idLen := 4
  clkDiv := 0xFF

/-- The machine right after a power-on reset (R34, R112). The buffers hold free values: nothing is listed. The device is
an oracle with no scripted answer, the host has no turn pending, no bus event has happened. -/
def State.reset : State where
  busy := false
  done := false
  result := .ok
  misuse := false
  addr := 0
  len := 0
  cfg := Cfg.reset
  wrsrData := 0
  lastSr := 0
  pollCount := 0
  wrbuf := []
  rdbuf := []
  wel := .clear
  wakeNeeded := true
  op := .illegal
  phase := .idle
  frame := .wren
  pos := 0
  k := 0
  isOpen := false
  csN := true
  sclk := false
  mosi := false
  hrdata := 0
  device := .oracle []
  draws := 0
  powerOns := 0
  schedule := []
  trace := []

end Sys2Proof.Machine
end

