-- ==== Sys2Proof/Machine/Operands.lean ====
section
/-! DEFINITION. Operand assembly (R60), the byte memories behind the buffers and the FRAM array (R38, R50), the range
check (R78), and the layout of every frame (R55, R70). -/

namespace Sys2Proof.Machine

/-! ### Byte memories -/

/-- The byte at `a`; what nothing has written is the free value `free a`. -/
def Memory.read (free : Nat → Byte) : Memory → Nat → Byte
  | [], a => free a
  | (x, b) :: m, a => if a = x then b else Memory.read free m a

/-- Store `v` at `a`, keeping the addresses strictly rising. -/
def Memory.write : Memory → Nat → Byte → Memory
  | [], a, v => [(a, v)]
  | (x, b) :: m, a, v =>
    if a < x then (a, v) :: (x, b) :: m
    else if a = x then (a, v) :: m
    else (x, b) :: Memory.write m a v

/-- Addresses strictly rising, all at least `lo`. -/
def Memory.risingFrom (lo : Nat) : Memory → Bool
  | [] => true
  | (x, _) :: m => decide (lo ≤ x) && Memory.risingFrom (x + 1) m

/-- The canonical form of a memory of `size` bytes: addresses strictly rising, all below `size`. An address with no
entry has no value of its own (a read draws the free value), so no entry can repeat what an unlisted address holds. -/
def Memory.wf (size : Nat) (m : Memory) : Bool := Memory.risingFrom 0 m && m.all fun c => decide (c.1 < size)

/-- Byte `j` of WRBUF (R21). -/
def State.wrByte (s : State) (j : Nat) : Byte := Memory.read (Config.powerOnWrbuf s.powerOns) s.wrbuf j

/-- Byte `j` of RDBUF (R22). -/
def State.rdByte (s : State) (j : Nat) : Byte := Memory.read (Config.powerOnRdbuf s.powerOns) s.rdbuf j

/-- Store to byte `j` of a buffer; there are bytes `0 … 1023` and no others (R21, R22, R36). -/
def Buffer.put (b : Buffer) (j : Nat) (v : Byte) : Buffer :=
  if j < Config.bufferSize then Memory.write b j v else b

/-- `{b3, b2, b1, b0}` (R7, R38). -/
def word32 (b3 b2 b1 b0 : Byte) : Word := b3 ++ b2 ++ b1 ++ b0

/-- `BufWord` over WRBUF: word `k` is bytes `4k … 4k+3`, little-endian (R38). -/
def State.wrWord (s : State) (k : Nat) : Word :=
  word32 (s.wrByte (4 * k + 3)) (s.wrByte (4 * k + 2)) (s.wrByte (4 * k + 1)) (s.wrByte (4 * k))

/-- `BufWord` over RDBUF (R38). -/
def State.rdWord (s : State) (k : Nat) : Word :=
  word32 (s.rdByte (4 * k + 3)) (s.rdByte (4 * k + 2)) (s.rdByte (4 * k + 1)) (s.rdByte (4 * k))

/-- `SetBufWord` (R38). -/
def Buffer.putWord (b : Buffer) (k : Nat) (w : Word) : Buffer :=
  Buffer.put
    (Buffer.put
      (Buffer.put
        (Buffer.put b (4 * k) (w.extractLsb' 0 8))
        (4 * k + 1) (w.extractLsb' 8 8))
      (4 * k + 2) (w.extractLsb' 16 8))
    (4 * k + 3) (w.extractLsb' 24 8)

/-! ### Operands -/

/-- `addrHi` = ADDR[15:8] (R39). -/
def State.addrHi (s : State) : Byte := s.addr.extractLsb' 8 8

/-- `addrLo` = ADDR[7:0] (R39). -/
def State.addrLo (s : State) : Byte := s.addr.extractLsb' 0 8

/-- `AddrOK(a, n)`, on unbounded naturals (R78). -/
def addrOK (a n : Nat) : Bool := decide (a < Config.framSize) && decide (n ≤ Config.bufferSize) && decide (a + n ≤ Config.framSize)

/-- `AddrOK(ADDR, LEN)`. -/
def State.rangeOK (s : State) : Bool := addrOK s.addr.toNat s.len.toNat

/-- The commands whose ADDR and LEN are checked: READ, WRITE and WRITE_PAGE (R77, R78). -/
def bearsAddress : Op → Bool
  | .read | .write | .writePage => true
  | .wren | .wrdi | .rdsr | .wrsr | .rdid | .sleep | .illegal => false

/-! ### Frame layouts -/

/-- How many bytes a frame sends before its read phase: opcode, address, write data (R55). -/
def outLen (f : WireOp) (s : State) : Nat :=
  match f with
  | .wren | .wrdi | .rdsr | .rdid | .sleep => 1
  | .wrsr => 2
  | .read => 3
  | .write => 3 + s.len.toNat

/-- How many bytes a frame reads: one status byte, ID_LEN ID bytes, LEN data bytes (R55, R60). -/
def readLen (f : WireOp) (s : State) : Nat :=
  match f with
  | .rdsr => 1
  | .rdid => s.cfg.idLen.toNat
  | .read => s.len.toNat
  | .wren | .wrdi | .wrsr | .write | .sleep => 0

/-- Byte `j` of the bytes a frame sends: `opcode`, then `new_status`, or `addrHi`, `addrLo` and the WRBUF bytes (R55). -/
def outByte (f : WireOp) (s : State) (j : Nat) : Byte :=
  if j = 0 then f.opcode
  else
    match f with
    | .wrsr => s.wrsrData
    | .read | .write => if j = 1 then s.addrHi else if j = 2 then s.addrLo else s.wrByte (j - 3)
    | .wren | .wrdi | .rdsr | .rdid | .sleep => 0

/-- The bytes a frame sends, as the list of R55. -/
def outBytes (f : WireOp) (s : State) : List Byte := (List.range (outLen f s)).map (outByte f s)

/-- The events of a frame (R70): chip-select falls, the bytes go out, the read phase, chip-select rises. -/
inductive FrameEvent where
  | csAssert
  | send (o : Byte)
  | recv (j : Nat)
  | csDeassert
  deriving DecidableEq, Repr

/-- Event number `p` of the frame's event list `Frame(out, n)` (R70). -/
def frameEvent (f : WireOp) (s : State) (p : Nat) : FrameEvent :=
  if p = 0 then .csAssert
  else if p ≤ outLen f s then .send (outByte f s (p - 1))
  else if p ≤ outLen f s + readLen f s then .recv (p - 1 - outLen f s)
  else .csDeassert

/-- The number of events of a frame, `2 + len(out) + n` (R70). -/
def frameEvents (f : WireOp) (s : State) : Nat := 2 + outLen f s + readLen f s

end Sys2Proof.Machine
end

