-- ==== Sys2Proof/Machine/Flags.lean ====
section
/-! DEFINITION. The flags: the codes and the layout of STATUS (R14, R100), and the write-enable-latch FSM (R82). -/

namespace Sys2Proof.Machine

/-- The code of a result in STATUS.RESULT (R100). -/
def Result.code : Result → BitVec 3
  | .ok => 0
  | .addressOutOfRange => 1
  | .writeNotEnabled => 2
  | .deviceTimeout => 3
  | .illegalCommand => 4

/-- The code of `s.wel` in STATUS.WEL_STATE (R14). -/
def Wel.code : Wel → BitVec 2
  | .clear => 0
  | .requested => 1
  | .verified => 2

/-- The STATUS word: `{23'b0, WEL_STATE, WAKE_NEEDED, MISUSE, RESULT, DONE, BUSY}` (R14, R37). -/
def State.status (s : State) : Word :=
  (0 : BitVec 23) ++ s.wel.code ++ BitVec.ofBool s.wakeNeeded ++ BitVec.ofBool s.misuse ++ s.result.code ++
    BitVec.ofBool s.done ++ BitVec.ofBool s.busy

/-- The CFG word: `{CLK_DIV, 4'b0, ID_LEN, POLL_MAX, 7'b0, POLL_EN}` (R17, R37). -/
def Cfg.word (c : Cfg) : Word :=
  c.clkDiv ++ (0 : BitVec 4) ++ c.idLen ++ c.pollMax ++ (0 : BitVec 7) ++ BitVec.ofBool c.pollEn

/-- The fields a CFG write stores; the reserved bits are ignored (R17, R37). -/
def Cfg.ofWord (w : Word) : Cfg where
  pollEn := w.getLsbD 0
  pollMax := w.extractLsb' 8 8
  idLen := w.extractLsb' 16 4
  clkDiv := w.extractLsb' 24 8

/-- Bit 1 of a status byte: the device's WEL bit (R6, R10). -/
def welBit (sr : Byte) : Bool := sr.getLsbD 1

/-- The transitions of `s.wel` when a frame ends (R82). `sr` is the status byte the frame received; only RDSR reads it. -/
def welAfter (f : WireOp) (sr : Byte) (w : Wel) : Wel :=
  match f with
  | .wren => .requested
  | .rdsr =>
    if welBit sr then
      match w with
      | .clear => .clear
      | .requested => .verified
      | .verified => .verified
    else .clear
  | .read | .rdid =>
    match w with
    | .clear => .clear
    | .requested => .requested
    | .verified => .requested
  | .write => .clear
  | .wrdi | .wrsr | .sleep => .clear

/-- The poll bound: POLL_MAX + 1 polls, 1 to 256 (R60, R95). -/
def Cfg.pollBound (c : Cfg) : Nat := c.pollMax.toNat + 1

end Sys2Proof.Machine
end

