-- ==== Sys2Proof/Machine/Device.lean ====
section
/-! DEFINITION. The device agent: the oracle, whose every answer is a free input (R49), and the reference device, the
spec's deterministic model of the FRAM chip (R50 to R53). -/

namespace Sys2Proof.Machine

/-- Byte `x` of the reference device's array. -/
def RefDevice.arrByte (r : RefDevice) (x : Nat) : Byte := Memory.read Config.framContents r.arr x

/-- ID byte `j`: `dev.id[j]` for `j < 16`, 0x00 after (R52). -/
def RefDevice.idByte (r : RefDevice) (j : Nat) : Byte := if h : j < 16 then r.id[j] else 0

/-- CS↓ (R51): a new frame; a sleeping device wakes and ignores the whole transaction. -/
def RefDevice.csDown (r : RefDevice) : RefDevice :=
  { r with asleep := false, ignoring := r.asleep, cmd := none, pos := 0, a := 0, data := [] }

/-- What the device returns for the byte number `r.pos` of the frame: data in a read phase, 0x00 in the others (R51,
R52). -/
def RefDevice.answer (r : RefDevice) : Byte :=
  match r.cmd with
  | some .rdsr => if 1 ≤ r.pos then r.sr else 0
  | some .read => if 3 ≤ r.pos then r.arrByte ((r.a.toNat + (r.pos - 3)) % Config.framSize) else 0
  | some .rdid => if 1 ≤ r.pos then r.idByte (r.pos - 1) else 0
  | some .wren | some .wrdi | some .wrsr | some .write | some .sleep | none => 0

/-- What the device makes of a received byte: the opcode, then the address of READ and WRITE, most-significant byte
first, then data (R39, R51, R55). An unknown opcode is ignored until CS↑. -/
def RefDevice.receive (r : RefDevice) (o : Byte) : RefDevice :=
  if r.pos = 0 then
    match decodeWire o with
    | some f => { r with cmd := some f, pos := 1 }
    | none => { r with ignoring := true, pos := 1 }
  else
    match r.cmd with
    | some .read =>
      if r.pos = 1 then { r with a := o ++ (0 : Byte), pos := 2 }
      else if r.pos = 2 then { r with a := r.a.extractLsb' 8 8 ++ o, pos := 3 }
      else { r with pos := r.pos + 1 }
    | some .write =>
      if r.pos = 1 then { r with a := o ++ (0 : Byte), pos := 2 }
      else if r.pos = 2 then { r with a := r.a.extractLsb' 8 8 ++ o, pos := 3 }
      else { r with data := r.data ++ [o], pos := r.pos + 1 }
    | some .wrsr => { r with data := r.data ++ [o], pos := r.pos + 1 }
    | some .wren | some .wrdi | some .rdsr | some .rdid | some .sleep | none => { r with pos := r.pos + 1 }

/-- Store the data bytes at `x`, `x + 1`, … modulo the array size (R52). -/
def storeBytes (m : Memory) (x : Nat) : List Byte → Memory
  | [] => m
  | b :: bs => storeBytes (Memory.write m (x % Config.framSize) b) (x + 1) bs

/-- `dev.sr[1] <- v`. -/
def setWel (sr : Byte) (v : Bool) : Byte := if v then sr ||| 0x02 else sr &&& 0xFD

/-- `dev.sr[7:2] <- new_status[7:2]`. -/
def setProtection (sr new : Byte) : Byte := (new &&& 0xFC) ||| (sr &&& 0x03)

/-- The `new_status` of a WRSR frame: its first data byte, or a free value where the frame brought none (log 16). -/
def RefDevice.newStatus (r : RefDevice) : Byte :=
  match r.data with
  | new :: _ => new
  | [] => Config.missingStatus r.statusWrites

/-- CS↑ (R52): the effect of the frame, on the device that did not ignore it. The rows hold of a frame with fewer bytes
than its layout too (a SLEEP frame whose opcode collides, a frame a reset cut short): a WRITE stores the data bytes it
received, be there none, and clears WEL. -/
def RefDevice.effect (r : RefDevice) : RefDevice :=
  match r.cmd with
  | some .wren => { r with sr := setWel r.sr true }
  | some .wrdi => { r with sr := setWel r.sr false }
  | some .wrsr =>
    if welBit r.sr then
      { r with sr := setWel (setProtection r.sr r.newStatus) false, statusWrites := r.statusWrites + 1 }
    else r
  | some .write =>
    if welBit r.sr then { r with arr := storeBytes r.arr r.a.toNat r.data, sr := setWel r.sr false } else r
  | some .sleep => { r with asleep := true }
  | some .rdsr | some .read | some .rdid | none => r

/-- CS↑: the frame ends; an ignored transaction has no effect. -/
def RefDevice.csUp (r : RefDevice) : RefDevice :=
  let r' := if r.ignoring then r else r.effect
  { r' with ignoring := false, cmd := none, pos := 0, a := 0, data := [] }

/-- A reference device at its own power-up (R50): WEL is 0, it is awake, no frame is open. The array, the other status
bits and the ID bytes are parameters. -/
def RefDevice.powerUp (arr : Memory) (sr : Byte) (id : Vector Byte 16) : RefDevice where
  arr := arr
  sr := setWel (sr &&& 0xFE) false
  asleep := false
  id := id
  ignoring := false
  cmd := none
  pos := 0
  a := 0
  data := []
  statusWrites := 0

/-- A power cycle of a reference device (R50, R111): the array and the ID bytes survive, WEL is 0 and it is awake. `status`
gives the status bits R50 leaves out; `midway` says that chip-select is low, and then the device, which saw no CS↓, ignores
what is left of the transaction (log 21). -/
def RefDevice.powerCycle (status : Byte) (midway : Bool) (r : RefDevice) : RefDevice :=
  { RefDevice.powerUp r.arr status r.id with ignoring := midway, statusWrites := r.statusWrites }

/-- The device sees chip-select fall. -/
def Device.csDown : Device → Device
  | .oracle l => .oracle l
  | .reference r => .reference r.csDown

/-- The device sees chip-select rise. -/
def Device.csUp : Device → Device
  | .oracle l => .oracle l
  | .reference r => .reference r.csUp

/-- What one `Xfer` receives when the free-value counter stands at `n` (R49): the oracle's next scripted answer, or a
free value when it has none; a device that ignores the transaction answers a free value (log 6). -/
def Device.answer (n : Nat) : Device → Byte
  | .oracle [] => Config.freeMiso n
  | .oracle (i :: _) => i
  | .reference r => if r.ignoring then Config.freeMiso n else r.answer

/-- Whether that answer is the free value number `n`. -/
def Device.drawsFree : Device → Bool
  | .oracle [] => true
  | .oracle (_ :: _) => false
  | .reference r => r.ignoring

/-- The device after one `Xfer` that sent it `o`. -/
def Device.receive (o : Byte) : Device → Device
  | .oracle [] => .oracle []
  | .oracle (_ :: l) => .oracle l
  | .reference r => .reference (if r.ignoring then r else r.receive o)

end Sys2Proof.Machine
end

