-- ==== Sys2Proof/Machine/Ops.lean ====
section
/-! DEFINITION. The shared operations of the sequencer: the bus primitives (R65 to R73), the life of a command (R76 to
R80), the wake pulse (R89), and one event of a frame with what follows at its end. The block has no exception (R99):
`complete` is the one place where an error is reported. -/

namespace Sys2Proof.Machine

/-! ### Bus primitives -/

/-- `CsAssert()` (R65): `cs_n <- 0; s.open <- 1`. -/
def csAssert (s : State) : State :=
  { s with csN := false, sclk := false, mosi := false, isOpen := true, device := s.device.csDown, trace := .csDown :: s.trace }

/-- `CsDeassert()` (R69): `cs_n <- 1; s.open <- 0`. -/
def csDeassert (s : State) : State :=
  { s with csN := true, sclk := false, mosi := false, isOpen := false, device := s.device.csUp, trace := .csUp :: s.trace }

/-- The byte the device answers to the next `Xfer`: a free input of the step (R49, R66). -/
def State.misoByte (s : State) : Byte := s.device.answer s.draws

/-- The free-value counter after one `Xfer`. -/
def State.nextDraws (s : State) : Nat := if s.device.drawsFree then s.draws + 1 else s.draws

/-- `Xfer(o)` whose received byte is discarded: it changes no register (R66, R71). -/
def xferSend (o : Byte) (s : State) : State :=
  { s with sclk := false, mosi := false, device := s.device.receive o, draws := s.nextDraws, trace := .sent o :: s.trace }

/-- `Xfer(0x00)` of a read phase (R71); the caller stores the byte received, `s.misoByte`. -/
def xferRecv (s : State) : State :=
  { s with sclk := false, mosi := false, device := s.device.receive 0, draws := s.nextDraws,
           trace := .exchanged 0 s.misoByte :: s.trace }

/-- `Wait(kind)` (R73): one step with no bus activity. -/
def busWait (kind : WaitKind) (s : State) : State := { s with trace := .wait kind :: s.trace }

/-! ### The life of a command -/

/-- `complete(code)` (R80). -/
def complete (code : Result) (s : State) : State :=
  { s with result := code, done := true, busy := false, phase := .idle }

/-- The acceptance branch of `CommandWrite` (R76). -/
def accept (op : Op) (s : State) : State :=
  { s with op := op, busy := true, done := false, result := .ok, pollCount := 0, k := 0, phase := .accepted }

/-- `CommandWrite` with the command already decoded (R76): nothing under the misuse lock, a misuse while a command runs,
else acceptance. -/
def commandWrite (op : Op) (s : State) : State :=
  if s.misuse then s
  else if s.busy then { s with misuse := true }
  else accept op s

/-- The start of a command's body: its phase and its first frame, at the frame's first event (R27). -/
def beginBody (p : Phase) (f : WireOp) (s : State) : State := { s with phase := p, frame := f, pos := 0 }

/-- `Validate()` (R77): one step, no bus event. `start` enters the command's body. DESIGN CHOICE (log 22): a WRITE_PAGE
rejected here keeps `s.wel`, as R77 and R82 say; R93 says that `s.wel` after WRITE_PAGE is always WL_CLEAR. -/
def validate (op : Op) (start : State → State) (s : State) : State :=
  if op = .illegal then complete .illegalCommand s
  else if bearsAddress op && !s.rangeOK then complete .addressOutOfRange s
  else if op = .write ∧ s.wel ≠ .verified then complete .writeNotEnabled s
  else if s.wakeNeeded then { s with phase := .waking, pos := 0 }
  else start s

/-- `Wake()` (R89), one of its three steps: CS↓, CS↑, WAIT(WAKE). The last clears WAKE_NEEDED and enters the body. -/
def wakeStep (start : State → State) (s : State) : State :=
  if s.pos = 0 then { csAssert s with pos := 1 }
  else if s.pos = 1 then { csDeassert s with pos := 2 }
  else start { busWait .wake s with wakeNeeded := false }

/-! ### Frames -/

/-- What the sequencer does with byte `j` of a read phase, in the step of its `Xfer`: RDSR keeps it in LAST_SR, and the
poller counts the poll (R85, R95); READ and RDID store it in RDBUF (R90, R91). -/
def keepByte (f : WireOp) (j : Nat) (i : Byte) (s : State) : State :=
  match f with
  | .rdsr => if s.phase = .polling then { s with lastSr := i, k := s.k + 1, pollCount := s.k + 1 } else { s with lastSr := i }
  | .read | .rdid => { s with rdbuf := Buffer.put s.rdbuf j i }
  | .wren | .wrdi | .wrsr | .write | .sleep => s

/-- What every frame's end writes: `s.wel` (R82), and WAKE_NEEDED after a SLEEP frame (R92). The status byte of an RDSR
is the one LAST_SR holds (R85; log 10). DESIGN CHOICE (log 20): where the frame completes its command, `s.wel` and
WAKE_NEEDED change in the completing step itself (R80, R82, R83, R92), not in one before it (R45). -/
def closeFrame (f : WireOp) (s : State) : State :=
  { s with wel := welAfter f s.lastSr s.wel, wakeNeeded := if f = .sleep then true else s.wakeNeeded, pos := 0 }

/-- How WRITE_PAGE goes on when one of its frames ends (R93 to R95). -/
def writePageNext (f : WireOp) (s : State) : State :=
  match s.phase with
  | .writeEnabling =>
    if f = .wren then { s with frame := .rdsr }
    else if welBit s.lastSr then { s with phase := .writeEnableVerified }
    else complete .writeNotEnabled s
  | .writing => if s.cfg.pollEn then beginBody .polling .rdsr s else { s with phase := .settling }
  | .polling =>
    if welBit s.lastSr then
      if s.k.toNat = s.cfg.pollBound then complete .deviceTimeout s else s
    else complete .ok s
  | .idle | .accepted | .waking | .framing | .reading | .identifying | .writeEnableVerified | .settling => s

/-- What the command does in the step of its frame's `CsDeassert`: a single-frame command completes with OK (R83 to R87,
R90 to R92), WRITE_PAGE goes on. The step is the one in which `closeFrame` has moved `s.wel` and WAKE_NEEDED (log 20). -/
def frameEnd (f : WireOp) (s : State) : State := if s.op = .writePage then writePageNext f s else complete .ok s

/-- One event of frame `f`, the one `s.pos` names (R27, R70). The last event also closes the frame and, for most commands,
completes them: one step, the model's choice between R80 to R92 and R45 (log 20). -/
def frameStep (f : WireOp) (s : State) : State :=
  match frameEvent f s s.pos with
  | .csAssert => { csAssert s with pos := 1 }
  | .send o => { xferSend o s with pos := s.pos + 1 }
  | .recv j => { keepByte f j s.misoByte (xferRecv s) with pos := s.pos + 1 }
  | .csDeassert => frameEnd f (closeFrame f (csDeassert s))

/-- The phases in which a frame is in progress (R27). -/
def Phase.framed : Phase → Bool
  | .framing | .reading | .identifying | .writeEnabling | .writing | .polling => true
  | .idle | .accepted | .waking | .writeEnableVerified | .settling => false

/-- One step of frame `f` where that frame is the one in progress. -/
def runFrame (f : WireOp) (s : State) : Out :=
  if s.phase.framed && decide (s.frame = f) then .next (frameStep f s) else .fault .strayPosition

/-- One step of the life of command `op`: written to CMD while the sequencer is idle; validated; woken; then its body,
which `start` enters and `body` runs. -/
def runCommand (op : Op) (start : State → State) (body : State → Out) (s : State) : Out :=
  match s.phase with
  | .idle => .next (commandWrite op s)
  | .accepted => .next (validate op start s)
  | .waking => .next (wakeStep start s)
  | .framing | .reading | .identifying | .writeEnabling | .writeEnableVerified | .writing | .polling | .settling => body s

/-- The body of a command that is the single frame `f`, in phase `p`. -/
def singleFrame (p : Phase) (f : WireOp) (s : State) : Out :=
  if s.phase = p then runFrame f s else .fault .strayPosition

/-! ### Reset and power -/

/-- The effect of `rst_n` = 0 (R34, R113): the buffers keep their contents; a frame that was open ends with CS↑ (R114),
which the device sees and the trace records. The outside agents are not reset (R50). -/
def blockReset (s : State) : State :=
  { State.reset with
    wrbuf := s.wrbuf
    rdbuf := s.rdbuf
    device := if s.isOpen then s.device.csUp else s.device
    draws := s.draws
    powerOns := s.powerOns
    schedule := s.schedule
    trace := if s.isOpen then .csUp :: s.trace else s.trace }

/-- A power cycle of the block (R111, R112): a reset after which, in addition, every buffer byte is a fresh free value. The
device, and with it the non-volatile array, keeps its state. -/
def blockPowerOn (s : State) : State := { blockReset s with wrbuf := [], rdbuf := [], powerOns := s.powerOns + 1 }

/-- A power cycle of the device (R50, R111); the block keeps its state. The oracle's answers are free before and after. -/
def devicePowerUp (s : State) : State :=
  match s.device with
  | .oracle _ => s
  | .reference r =>
    { s with device := .reference (r.powerCycle (Config.powerUpStatus s.draws) s.isOpen), draws := s.draws + 1 }

end Sys2Proof.Machine
end

