-- ==== Sys2Proof/Machine/FrameCommands.lean ====
section
/-! DEFINITION. The commands of the framer: WREN, WRDI, RDSR, WRSR and the raw WRITE, each one frame (R83 to R87), and
the reserved words (R88). -/

namespace Sys2Proof.Machine

/-- WREN (R83). -/
def execWren (s : State) : Out := runCommand .wren (beginBody .framing .wren) (singleFrame .framing .wren) s

/-- WRDI (R84). -/
def execWrdi (s : State) : Out := runCommand .wrdi (beginBody .framing .wrdi) (singleFrame .framing .wrdi) s

/-- RDSR (R85). -/
def execRdsr (s : State) : Out := runCommand .rdsr (beginBody .framing .rdsr) (singleFrame .framing .rdsr) s

/-- WRSR (R86). -/
def execWrsr (s : State) : Out := runCommand .wrsr (beginBody .framing .wrsr) (singleFrame .framing .wrsr) s

/-- The raw WRITE (R87); its guards are in validation (R77). -/
def execWrite (s : State) : Out := runCommand .write (beginBody .framing .write) (singleFrame .framing .write) s

/-- A reserved command word (R59, R88): accepted, then completed with ILLEGAL_COMMAND by validation. It has no body. -/
def execIllegal (_w : Word) (s : State) : Out :=
  match s.phase with
  | .idle => .next (commandWrite .illegal s)
  | .accepted => .next (validate .illegal id s)
  | .waking | .framing | .reading | .identifying | .writeEnabling | .writeEnableVerified | .writing | .polling
  | .settling => .fault .strayPosition

end Sys2Proof.Machine
end

