-- ==== Sys2Proof/Machine/StorageCommands.lean ====
section
/-! DEFINITION. The commands of the storage interface: READ, RDID, SLEEP and WRITE_PAGE with its poller (R90 to R96). -/

namespace Sys2Proof.Machine

/-- READ (R90). -/
def execRead (s : State) : Out := runCommand .read (beginBody .reading .read) (singleFrame .reading .read) s

/-- RDID (R91). -/
def execRdid (s : State) : Out := runCommand .rdid (beginBody .identifying .rdid) (singleFrame .identifying .rdid) s

/-- SLEEP (R92). -/
def execSleep (s : State) : Out := runCommand .sleep (beginBody .framing .sleep) (singleFrame .framing .sleep) s

/-- The body of WRITE_PAGE (R93): WREN, the verify RDSR, WRITE, then polls or one settle wait. -/
def writePageBody (s : State) : Out :=
  match s.phase with
  | .writeEnabling => if s.frame = .wren then runFrame .wren s else runFrame .rdsr s
  | .writeEnableVerified => .next (frameStep .write (beginBody .writing .write s))
  | .writing => runFrame .write s
  | .polling => runFrame .rdsr s
  | .settling => .next (complete .ok (busWait .settle s))
  | .idle | .accepted | .waking | .framing | .reading | .identifying => .fault .strayPosition

/-- WRITE_PAGE (R93); rejected in validation it keeps `s.wel` (log 22). -/
def execWritePage (s : State) : Out := runCommand .writePage (beginBody .writeEnabling .wren) writePageBody s

end Sys2Proof.Machine
end

