-- ==== Sys2Proof/Machine/WireFrames.lean ====
section
/-! DEFINITION. The eight wire frames (R55): one event of the frame in progress, and at its end what its command does. -/

namespace Sys2Proof.Machine

/-- `[0x06]` (R55, R83). -/
def execWireWren (s : State) : Out := runFrame .wren s

/-- `[0x04]` (R55, R84). -/
def execWireWrdi (s : State) : Out := runFrame .wrdi s

/-- `[0x05]`, then read 1 byte (R55, R85). -/
def execWireRdsr (s : State) : Out := runFrame .rdsr s

/-- `[0x01, new_status]` (R55, R86). -/
def execWireWrsr (s : State) : Out := runFrame .wrsr s

/-- `[0x03, addrHi, addrLo]`, then read LEN bytes (R55, R90). -/
def execWireRead (s : State) : Out := runFrame .read s

/-- `[0x02, addrHi, addrLo]`, then write LEN bytes (R55, R87). -/
def execWireWrite (s : State) : Out := runFrame .write s

/-- `[0x9F]`, then read ID_LEN bytes (R55, R91). -/
def execWireRdid (s : State) : Out := runFrame .rdid s

/-- `[SLEEP_OPCODE]` (R55, R92). -/
def execWireSleep (s : State) : Out := runFrame .sleep s

end Sys2Proof.Machine
end

