-- ==== Sys2Proof/Machine/Dispatch.lean ====
section
/-! DEFINITION. One arm per instruction. -/

namespace Sys2Proof.Machine

def exec (i : Instr) (s : State) : Host.Outcome State Fault Refusal :=
  match i with
  | .wren => Sys2Proof.Machine.execWren s
  | .wrdi => Sys2Proof.Machine.execWrdi s
  | .rdsr => Sys2Proof.Machine.execRdsr s
  | .wrsr => Sys2Proof.Machine.execWrsr s
  | .read => Sys2Proof.Machine.execRead s
  | .write => Sys2Proof.Machine.execWrite s
  | .rdid => Sys2Proof.Machine.execRdid s
  | .sleep => Sys2Proof.Machine.execSleep s
  | .writePage => Sys2Proof.Machine.execWritePage s
  | .wireWren => Sys2Proof.Machine.execWireWren s
  | .wireWrdi => Sys2Proof.Machine.execWireWrdi s
  | .wireRdsr => Sys2Proof.Machine.execWireRdsr s
  | .wireWrsr => Sys2Proof.Machine.execWireWrsr s
  | .wireRead => Sys2Proof.Machine.execWireRead s
  | .wireWrite => Sys2Proof.Machine.execWireWrite s
  | .wireRdid => Sys2Proof.Machine.execWireRdid s
  | .wireSleep => Sys2Proof.Machine.execWireSleep s
  | .illegal w => Sys2Proof.Machine.execIllegal w s

end Sys2Proof.Machine
end

