-- ==== Sys2Proof/Machine/HostPort.lean ====
section
/-! DEFINITION. The host port: the register map (R12, R37), the host's turns (R45, R113), and where the next step finds
the instruction it runs. -/

namespace Sys2Proof.Machine

/-- `HostRead(k)` (R37). -/
def hostRead (k : BitVec 10) (s : State) : Word :=
  if k.toNat = 0 then 0
  else if k.toNat = 1 then s.status
  else if k.toNat = 2 then s.addr
  else if k.toNat = 3 then s.len.setWidth 32
  else if k.toNat = 4 then s.cfg.word
  else if k.toNat = 5 then s.wrsrData.setWidth 32
  else if k.toNat = 6 then s.lastSr.setWidth 32
  else if k.toNat = 7 then s.pollCount.setWidth 32
  else if 256 ≤ k.toNat ∧ k.toNat < 512 then s.wrWord (k.toNat - 256)
  else if 512 ≤ k.toNat ∧ k.toNat < 768 then s.rdWord (k.toNat - 512)
  else 0

/-- `HostWrite(k, w)` (R37). -/
def hostWrite (k : BitVec 10) (w : Word) (s : State) : State :=
  if k.toNat = 0 then commandWrite (decodeOp w) s
  else if s.busy then s
  else if k.toNat = 2 then { s with addr := w }
  else if k.toNat = 3 then { s with len := w.extractLsb' 0 11 }
  else if k.toNat = 4 then { s with cfg := Cfg.ofWord w }
  else if k.toNat = 5 then { s with wrsrData := w.extractLsb' 0 8 }
  else if 256 ≤ k.toNat ∧ k.toNat < 512 then { s with wrbuf := Buffer.putWord s.wrbuf (k.toNat - 256) w }
  else s

/-- One host access: a read drives its word on `hrdata` and changes nothing else (R30, R37). -/
def hostAccess (a : HostAccess) (s : State) : State :=
  match a with
  | .read k => { s with hrdata := hostRead k s }
  | .write k w => hostWrite k w s

/-- WAITIDLE (R63): read STATUS; while BUSY = 1, let the sequencer take a step and read again. -/
def hostWaitIdle (s : State) : State :=
  { s with hrdata := s.status, schedule := if s.busy then .sequencer :: .waitIdle :: s.schedule else s.schedule }

/-- What the next step does: run an instruction on a state, or something that is no instruction. -/
inductive Fetched where
  | run (i : Instr) (s : State)
  | quiet (s : State)
  deriving DecidableEq, Repr

/-- The sequencer's step (R11, R32): it runs the latched command, and does nothing while there is none. -/
def fetchLatched (s : State) : Fetched := if s.busy then .run s.op.instr s else .quiet s

/-- Whose turn it is and what it runs. A CMD write to a block that is not busy brings in an instruction; every other
host access is no instruction. With no turn pending the host is silent and the sequencer goes on. -/
def fetch (s : State) : Fetched :=
  match s.schedule with
  | [] => fetchLatched s
  | .sequencer :: rest => fetchLatched { s with schedule := rest }
  | .host (.write k w) :: rest =>
    if k.toNat = 0 ∧ s.busy = false then .run (decodeCommand w) { s with schedule := rest }
    else .quiet (hostWrite k w { s with schedule := rest })
  | .host (.read k) :: rest => .quiet (hostAccess (.read k) { s with schedule := rest })
  | .waitIdle :: rest => .quiet (hostWaitIdle { s with schedule := rest })
  | .reset :: rest => .quiet (blockReset { s with schedule := rest })
  | .powerOn :: rest => .quiet (blockPowerOn { s with schedule := rest })
  | .devicePowerUp :: rest => .quiet (devicePowerUp { s with schedule := rest })

/-- A state whose next step runs the table row's word: a command word waits as a CMD write on the host port of a block
that is idle and not locked; a frame is the one the sequencer is about to send for the command that consists of it. -/
def loadCode (c : Code) (s : State) : State :=
  match c with
  | .cmd w =>
    { s with busy := false, misuse := false, phase := .idle, schedule := .host (.write 0 w) :: s.schedule }
  | .wire b =>
    match decodeWire b with
    | none => s
    | some f =>
      let s' := { s with busy := true, op := f.command, frame := f, pos := 0, schedule := .sequencer :: s.schedule }
      match f with
      | .read => { s' with phase := .reading }
      | .rdid => { s' with phase := .identifying }
      | .wren | .wrdi | .rdsr | .wrsr | .write | .sleep => { s' with phase := .framing }

end Sys2Proof.Machine
end

