-- ==== Sys2Proof/Machine/Step.lean ====
section
/-! DEFINITION. One step: one atomic turn of one agent (D1, D36). -/

namespace Sys2Proof.Machine

/-- The step: fetch, then run what was fetched. -/
def step (s : State) : Host.Outcome State Fault Refusal :=
  match fetch s with
  | .run i t => exec i t
  | .quiet t => .next t

/-- `s` with a table row's word placed where the next step fetches it. -/
def State.withFetchWord (s : State) (nbits w : Nat) : State :=
  match tableCode nbits w with
  | some c => loadCode c s
  | none => s

end Sys2Proof.Machine
end

