-- ==== Sys2Proof/Machine/Script.lean ====
section
/-! DEFINITION. The host script notation (R62) and the expansions of its pseudo-instructions (R63), as host turns. -/

namespace Sys2Proof.Machine

/-- `<reg>` of the notation (R62). -/
inductive HostReg where
  | cmd | status | addr | len | cfg | wrsrData | lastSr | pollCount
  deriving DecidableEq, Repr

/-- The word index of a register (R12, R62). -/
def HostReg.index : HostReg → BitVec 10
  | .cmd => 0
  | .status => 1
  | .addr => 2
  | .len => 3
  | .cfg => 4
  | .wrsrData => 5
  | .lastSr => 6
  | .pollCount => 7

/-- `W <reg>, <v>` (R62). -/
def scriptWrite (r : HostReg) (v : Word) : Turn := .host (.write r.index v)

/-- `R <reg>` (R62). -/
def scriptRead (r : HostReg) : Turn := .host (.read r.index)

/-- `W WRBUF[k], <v>` (R62). -/
def scriptWriteWrbuf (k : Fin 256) (v : Word) : Turn := .host (.write (BitVec.ofNat 10 (256 + k.val)) v)

/-- `R RDBUF[k]` (R62). -/
def scriptReadRdbuf (k : Fin 256) : Turn := .host (.read (BitVec.ofNat 10 (512 + k.val)))

/-- The CMD word of an instruction (R57); a frame row has none, and 0 is a reserved word. -/
def cmdWord (i : Instr) : Word :=
  match encode i with
  | .cmd w => w
  | .wire _ => 0

/-- `CMD <mnemonic>` (R63). -/
def scriptCmd (i : Instr) : Turn := scriptWrite .cmd (cmdWord i)

/-- `WRPAGE <a>, <n>` (R63). -/
def scriptWrpage (a n : Word) : List Turn :=
  [scriptWrite .addr a, scriptWrite .len n, scriptCmd .writePage, .waitIdle]

/-- `RDPAGE <a>, <n>` (R63). -/
def scriptRdpage (a n : Word) : List Turn := [scriptWrite .addr a, scriptWrite .len n, scriptCmd .read, .waitIdle]

/-- `IDENT` (R63). -/
def scriptIdent : List Turn := [scriptCmd .rdid, .waitIdle]

end Sys2Proof.Machine
end

