-- ==== Sys2Proof/Machine/Timing.lean ====
section
/-! DEFINITION. What the spec says below the event level: the pins during one `Xfer` in SPI mode 0 (R67), the SCLK rate
(R68) and the clock cycles of a byte (R126). No step depends on it (D1). -/

namespace Sys2Proof.Machine

/-- The half period H, in cycles of `clk` (R68). -/
def Cfg.halfPeriod (c : Cfg) : Nat := c.clkDiv.toNat + 1

/-- `sclk` and `mosi` during one cycle of `clk`. -/
structure PinSample where
  sclk : Bool
  mosi : Bool
  deriving DecidableEq, Repr

/-- One bit: `mosi` valid for H cycles with `sclk` low, then H cycles with `sclk` high (R67). -/
def bitWave (h : Nat) (b : Bool) : List PinSample := List.replicate h ⟨false, b⟩ ++ List.replicate h ⟨true, b⟩

/-- The bits of a byte in wire order, most-significant bit first (R41, R67). -/
def wireBits (o : Byte) : List Bool :=
  [o.getLsbD 7, o.getLsbD 6, o.getLsbD 5, o.getLsbD 4, o.getLsbD 3, o.getLsbD 2, o.getLsbD 1, o.getLsbD 0]

/-- The pins during `Xfer(o)`, cycle by cycle (R67). -/
def xferWave (h : Nat) (o : Byte) : List PinSample := (wireBits o).flatMap (bitWave h)

/-- The level of `mosi` at each rising edge of `sclk`; `prev` is the level of `sclk` before the first cycle. -/
def risingSamples (prev : Bool) : List PinSample → List Bool
  | [] => []
  | x :: xs => if x.sclk && !prev then x.mosi :: risingSamples x.sclk xs else risingSamples x.sclk xs

/-- The byte shifted in from bits in wire order (R67: `i[b] <- miso`, b from 7 down to 0). -/
def assemble (bits : List Bool) : Byte := bits.foldl (fun acc b => (acc <<< 1) ||| (BitVec.ofBool b).setWidth 8) 0

/-- Cycles of `clk` in one byte exchange: eight SCLK periods of two half periods (R67, R126). -/
def Cfg.byteCycles (c : Cfg) : Nat := 8 * (2 * c.halfPeriod)

/-- f_SCLK = F_CLK / (2 × (CLK_DIV + 1)) is at most 33 MHz, a host duty (R68, R121). -/
def Cfg.clockDuty (c : Cfg) : Prop := Config.clkHz ≤ Config.maxSclkHz * (2 * c.halfPeriod)

/-- How long a wait lasts (R73): T_WAKE or T_SETTLE, both OPEN. -/
def WaitKind.duration : WaitKind → Nat
  | .wake => Config.tWake
  | .settle => Config.tSettle

/-- A lower bound on how long chip-select stays high between the frames of a command (R72): T_CSH, OPEN. -/
def csHighBound : Nat := Config.tCsh

end Sys2Proof.Machine
end

