-- ==== Sys2Proof/Safety.lean ====
section
/-! DEFINITION. What counts as a safe state: the invariant of every reachable state (R35 and what it needs to be kept by
a step), the host duty of R117, and the words in which
statements about whole commands are written (R9, R125). -/

namespace Sys2Proof.Machine

/-- The phases of each command, and the frame each phase works on (R27, R83 to R93). -/
def phaseOwned (op : Op) (p : Phase) (f : WireOp) : Prop :=
  match p with
  | .idle | .accepted => True
  | .waking => op ≠ .illegal ∧ op ≠ .write
  | .framing =>
    (f = .wren ∧ op = .wren) ∨ (f = .wrdi ∧ op = .wrdi) ∨ (f = .rdsr ∧ op = .rdsr) ∨ (f = .wrsr ∧ op = .wrsr) ∨
      (f = .write ∧ op = .write) ∨ (f = .sleep ∧ op = .sleep)
  | .reading => f = .read ∧ op = .read
  | .identifying => f = .rdid ∧ op = .rdid
  | .writeEnabling => (f = .wren ∨ f = .rdsr) ∧ op = .writePage
  | .writeEnableVerified => op = .writePage
  | .writing => f = .write ∧ op = .writePage
  | .polling => f = .rdsr ∧ op = .writePage
  | .settling => op = .writePage

/-- Where chip-select is low within each phase, and the range of `pos` (R27, R29, R70, R89). -/
def State.positionOK (s : State) : Prop :=
  match s.phase with
  | .idle | .accepted | .writeEnableVerified | .settling => s.isOpen = false
  | .waking => (s.isOpen = true ↔ s.pos = 1) ∧ s.pos ≤ 2
  | .framing | .reading | .identifying | .writeEnabling | .writing | .polling =>
    (s.isOpen = true ↔ 1 ≤ s.pos) ∧ s.pos < frameEvents s.frame s

/-- WAKE_NEEDED once a command has passed validation: set while it wakes the device, clear in its body (R77, R89). -/
def State.wakeOK (s : State) : Prop :=
  match s.phase with
  | .idle | .accepted => True
  | .waking => s.wakeNeeded = true
  | .framing | .reading | .identifying | .writeEnabling | .writeEnableVerified | .writing | .polling | .settling =>
    s.wakeNeeded = false

/-- What `s.wel` is where a WRITE frame is sent or about to be (R81), and during WRITE_PAGE's verification (R93). -/
def State.welOK (s : State) : Prop :=
  match s.phase with
  | .framing => s.op = .write → s.wel = .verified
  | .writeEnabling => s.frame = .rdsr → s.wel = .requested
  | .writeEnableVerified | .writing => s.wel = .verified
  | .polling | .settling => s.wel = .clear
  | .idle | .accepted | .waking | .reading | .identifying => True

/-- The poll counter: mirrored, 0 outside the poller, and never past the bound (R28, R95, R107). `pos ≤ 2` says that the
poll in progress has not received its status byte. -/
def State.pollsOK (s : State) : Prop :=
  s.pollCount = s.k ∧ s.k.toNat ≤ 256 ∧
    match s.phase with
    | .idle => True
    | .polling => s.k.toNat + (if s.pos ≤ 2 then 1 else 0) ≤ s.cfg.pollBound
    | .accepted | .waking | .framing | .reading | .identifying | .writeEnabling | .writeEnableVerified | .writing
    | .settling => s.k = 0

/-- The range check holds from validation on (R77, R78). -/
def State.rangeGuard (s : State) : Prop :=
  match s.phase with
  | .idle | .accepted => True
  | .waking | .framing | .reading | .identifying | .writeEnabling | .writeEnableVerified | .writing | .polling
  | .settling => bearsAddress s.op = true → s.rangeOK = true

/-- The reference device's array is in canonical form and bit 0 of its status register is 0 (R52); the oracle holds nothing
to constrain. -/
def Device.wf : Device → Prop
  | .oracle _ => True
  | .reference r => Memory.wf Config.framSize r.arr = true ∧ r.sr.getLsbD 0 = false

/-- The invariant of every reachable state. The first five fields are R35; the others are what a step needs to keep
them, and what the rules named at each say. -/
structure State.Inv (s : State) : Prop where
  busy_running : s.busy = true ↔ s.phase ≠ .idle
  cs_open : s.csN = !s.isOpen
  open_busy : s.isOpen = true → s.busy = true
  asleep_clear : s.wakeNeeded = true → s.wel = .clear
  done_idle : s.done = true → s.busy = false
  sclk_low : s.sclk = false
  mosi_low : s.mosi = false
  owned : phaseOwned s.op s.phase s.frame
  position : s.positionOK
  wakes : s.wakeOK
  wel_ok : s.welOK
  polls : s.pollsOK
  ranged : s.rangeGuard
  device_wf : s.device.wf
  wrbuf_wf : Memory.wf Config.bufferSize s.wrbuf = true
  rdbuf_wf : Memory.wf Config.bufferSize s.rdbuf = true

/-- A state some run reaches: from power-on, whatever the host does and whatever the device answers, through resets and
power cycles. -/
inductive Reachable : State → Prop where
  | start (turns : List Turn) (d : Device) (h : d.wf) : Reachable { State.reset with schedule := turns, device := d }
  | step {s t : State} (h : Reachable s) (hs : Machine.step s = .next t) : Reachable t

/-- The host duty of R117: the next turn is no CMD write while a command runs. -/
def State.hostWaits (s : State) : Prop :=
  ∀ k w rest, s.schedule = .host (.write k w) :: rest → k.toNat = 0 → s.busy = false

/-- The next turn resets the block: `rst_n` = 0 (R113), or a power-on (R112). -/
def State.resetTurn (s : State) : Prop := ∃ rest, s.schedule = .reset :: rest ∨ s.schedule = .powerOn :: rest

/-- No host turn is pending: only the sequencer moves. -/
def State.hostSilent (s : State) : Prop := s.schedule = []

/-- The next step is the sequencer's. -/
def State.sequencerTurn (s : State) : Prop := s.schedule = [] ∨ ∃ rest, s.schedule = .sequencer :: rest

/-- The next sequencer step is the `CsDeassert` that ends a frame. -/
def State.closing (s : State) : Prop := s.busy = true ∧ s.phase.framed = true ∧ s.pos + 1 = frameEvents s.frame s

/-- `n` steps of the machine. -/
def State.run (n : Nat) (s : State) : Out := Host.Core.run Sys2Proof.core n s

/-! ### Traces -/

/-- The last frames of a trace (newest event first) are a WREN frame and after it only READ, RDID and confirming RDSR frames
(R82, R122). -/
inductive WrenPending : List BusEvent → Prop where
  | wren (l : List BusEvent) : WrenPending (.csUp :: .sent 0x06 :: .csDown :: l)
  | rdsr {l : List BusEvent} (h : WrenPending l) (sr : Byte) (hsr : welBit sr = true) :
    WrenPending (.csUp :: .exchanged 0x00 sr :: .sent 0x05 :: .csDown :: l)
  | read {l : List BusEvent} (h : WrenPending l) (hi lo : Byte) (data : List Byte) :
    WrenPending (.csUp :: (data.map (.exchanged 0x00) ++ .sent lo :: .sent hi :: .sent 0x03 :: .csDown :: l))
  | rdid {l : List BusEvent} (h : WrenPending l) (data : List Byte) :
    WrenPending (.csUp :: (data.map (.exchanged 0x00) ++ .sent 0x9F :: .csDown :: l))

/-! ### Whole commands -/

/-- The phase and the first frame of a command's body (R27). ILLEGAL has none; its row is never used. -/
def bodyStart : Op → Phase × WireOp
  | .wren => (.framing, .wren)
  | .wrdi => (.framing, .wrdi)
  | .rdsr => (.framing, .rdsr)
  | .wrsr => (.framing, .wrsr)
  | .read => (.reading, .read)
  | .write => (.framing, .write)
  | .rdid => (.identifying, .rdid)
  | .sleep => (.framing, .sleep)
  | .writePage => (.writeEnabling, .wren)
  | .illegal => (.idle, .wren)

/-- The command `op` has been accepted, will pass validation, and no host turn is pending (R76, R77). -/
structure State.Ready (s : State) (op : Op) : Prop where
  silent : s.hostSilent
  busy : s.busy = true
  latched : s.op = op
  accepted : s.phase = .accepted
  range : bearsAddress op = true → s.rangeOK = true
  latch : op = .write → s.wel = .verified

/-- The steps of the wake pulse: W of R125. -/
def State.wakeSteps (s : State) : Nat := if s.wakeNeeded then 3 else 0

/-- The trace of the wake pulse, when there is one (R89). -/
def State.wakeTrace (s : State) : List BusEvent := if s.wakeNeeded then [.csDown, .csUp, .wait .wake] else []

/-- The trace of one frame to which the device answers `answers` in its read phase (R9, R70, R71). -/
def frameTrace (f : WireOp) (s : State) (answers : List Byte) : List BusEvent :=
  .csDown :: ((outBytes f s).map .sent ++ answers.map (.exchanged 0) ++ [.csUp])

/-- The registers only the host writes, WRBUF and the host's own pending turns: no command changes them (R23, R37). That
`hrdata` keeps its word is the model's choice (log 9). -/
structure SameOperands (s t : State) : Prop where
  addr : t.addr = s.addr
  len : t.len = s.len
  cfg : t.cfg = s.cfg
  wrsrData : t.wrsrData = s.wrsrData
  wrbuf : t.wrbuf = s.wrbuf
  powerOns : t.powerOns = s.powerOns
  hrdata : t.hrdata = s.hrdata
  schedule : t.schedule = s.schedule

end Sys2Proof.Machine
end

