-- ==== Sys2Proof/Certificates/Slice0/Obligations.lean ====
section
/-! DEFINITION. The statements for the provers. Each docstring names the rule of the spec it formalises. -/

open Sys2Proof Sys2Proof.Machine

/-! ### Encoding -/

/-- R58: `Decode(w)` in all its cases, and the same of what the latch `s.op` records (R26). -/
def Obligations.CommandWordsDecodeAsTheSpecSays : Prop :=
  ∀ w : Word,
    (w.extractLsb' 4 28 ≠ 0 → decodeCommand w = .illegal w ∧ decodeOp w = .illegal) ∧
    (w.extractLsb' 4 28 = 0 →
      ((w.extractLsb' 0 4).toNat = 1 → decodeCommand w = .wren ∧ decodeOp w = .wren) ∧
      ((w.extractLsb' 0 4).toNat = 2 → decodeCommand w = .wrdi ∧ decodeOp w = .wrdi) ∧
      ((w.extractLsb' 0 4).toNat = 3 → decodeCommand w = .rdsr ∧ decodeOp w = .rdsr) ∧
      ((w.extractLsb' 0 4).toNat = 4 → decodeCommand w = .wrsr ∧ decodeOp w = .wrsr) ∧
      ((w.extractLsb' 0 4).toNat = 5 → decodeCommand w = .read ∧ decodeOp w = .read) ∧
      ((w.extractLsb' 0 4).toNat = 6 → decodeCommand w = .write ∧ decodeOp w = .write) ∧
      ((w.extractLsb' 0 4).toNat = 7 → decodeCommand w = .rdid ∧ decodeOp w = .rdid) ∧
      ((w.extractLsb' 0 4).toNat = 8 → decodeCommand w = .sleep ∧ decodeOp w = .sleep) ∧
      ((w.extractLsb' 0 4).toNat = 9 → decodeCommand w = .writePage ∧ decodeOp w = .writePage) ∧
      ((w.extractLsb' 0 4).toNat = 0 ∨ 10 ≤ (w.extractLsb' 0 4).toNat →
        decodeCommand w = .illegal w ∧ decodeOp w = .illegal))

/-- Decode and encode agree on every well-formed instruction (R55 to R59). A SLEEP frame is told apart only where
SLEEP_OPCODE is none of the other seven opcodes (conflict C1; log 1). -/
def Obligations.DecodeInvertsEncode : Prop :=
  ∀ i : Instr, i.wf = true → (i = .wireSleep → sleepOpcodeFresh = true) → decode (encode i) = .ok i

/-- What the decoder accepts is well formed and encodes to the word it came from: no bit is dropped (R54 to R59). -/
def Obligations.EncodeInvertsDecode : Prop :=
  ∀ (c : Code) (i : Instr), decode c = .ok i → i.wf = true ∧ encode i = c

/-- R55, R57, R59: words written out from the opcode table. -/
def Obligations.TableWordsDecode : Prop :=
  decodeTableWord 32 0x00000001 = some .wren ∧ decodeTableWord 32 0x00000009 = some .writePage ∧
  decodeTableWord 32 0x00000000 = some (.illegal 0) ∧ decodeTableWord 32 0x00000011 = some (.illegal 0x11) ∧
  decodeTableWord 8 0x06 = some .wireWren ∧ decodeTableWord 8 0x9F = some .wireRdid ∧
  decodeTableWord 8 0x02 = some .wireWrite ∧ decodeTableWord 16 0x06 = none

/-! ### The step -/

/-- R76, D36: a CMD write to a block that is not busy runs the decoded instruction, on the state without that turn. -/
def Obligations.StepRunsTheWrittenCommand : Prop :=
  ∀ (s : State) (w : Word) (rest : List Turn), s.schedule = .host (.write 0 w) :: rest → s.busy = false →
    step s = exec (decodeCommand w) { s with schedule := rest }

/-- R32: while a command runs, the sequencer's step is the latched command's instruction. -/
def Obligations.StepRunsTheLatchedCommand : Prop :=
  ∀ s : State, s.busy = true →
    (s.schedule = [] → step s = exec s.op.instr s) ∧
    (∀ rest, s.schedule = .sequencer :: rest → step s = exec s.op.instr { s with schedule := rest })

/-- R27, R46: in a phase with a frame in progress, that same step is the frame's own instruction. -/
def Obligations.StepRunsTheFrameInProgress : Prop :=
  ∀ s : State, s.Inv → s.phase.framed = true →
    (s.schedule = [] → step s = exec s.frame.instr s) ∧
    (∀ rest, s.schedule = .sequencer :: rest → step s = exec s.frame.instr { s with schedule := rest })

/-- A table row's word, loaded, is what the next step runs (the model's loading convention, log 7). -/
def Obligations.LoadedWordRunsNext : Prop :=
  (∀ (s : State) (n : Nat), step (s.withFetchWord 32 n) =
      exec (decodeCommand (BitVec.ofNat 32 n)) { s with busy := false, misuse := false, phase := .idle }) ∧
  (∀ (s : State) (n : Nat) (f : WireOp), decodeWire (BitVec.ofNat 8 n) = some f →
    step (s.withFetchWord 8 n) = exec f.instr
      { s with busy := true, op := f.command, phase := (bodyStart f.command).1, frame := f, pos := 0 })

/-- R80, R105: with no command running the sequencer does nothing. -/
def Obligations.IdleSequencerRests : Prop :=
  ∀ s : State, s.busy = false →
    (s.schedule = [] → step s = .next s) ∧
    (∀ rest, s.schedule = .sequencer :: rest → step s = .next { s with schedule := rest })

/-! ### Reset -/

/-- R34: every item of state after a reset, whatever it was before, after a power cycle of the running block (R112) and
after the first power-on, `State.reset`. R21 and R22 say only that the buffers' contents are unspecified after a power-on;
that each byte is then the free constant of its index and of the number of the power-on is the model's choice (log 4), and
the statement holds for every value of those constants. -/
def Obligations.ResetSetsEveryRegister : Prop :=
  (∀ (s : State) (rest : List Turn), s.schedule = .reset :: rest ∨ s.schedule = .powerOn :: rest →
    ∃ t, step s = .next t ∧
      hostRead 1 t = 0x00000040 ∧ hostRead 2 t = 0 ∧ hostRead 3 t = 0 ∧ hostRead 4 t = 0xFF04FF01 ∧
      hostRead 5 t = 0 ∧ hostRead 6 t = 0 ∧ hostRead 7 t = 0 ∧ hostRead 0 t = 0 ∧
      (s.schedule = .reset :: rest → t.wrbuf = s.wrbuf ∧ t.rdbuf = s.rdbuf ∧ (∀ j, t.wrByte j = s.wrByte j) ∧
        ∀ j, t.rdByte j = s.rdByte j) ∧
      (s.schedule = .powerOn :: rest → (∀ j, t.wrByte j = Config.powerOnWrbuf (s.powerOns + 1) j) ∧
        ∀ j, t.rdByte j = Config.powerOnRdbuf (s.powerOns + 1) j) ∧
      t.busy = false ∧ t.done = false ∧ t.result = .ok ∧ t.misuse = false ∧
      t.wel = .clear ∧ t.wakeNeeded = true ∧ t.op = .illegal ∧ t.phase = .idle ∧ t.k = 0 ∧ t.isOpen = false ∧
      t.csN = true ∧ t.sclk = false ∧ t.mosi = false) ∧
  (hostRead 1 State.reset = 0x00000040 ∧ hostRead 2 State.reset = 0 ∧ hostRead 3 State.reset = 0 ∧
    hostRead 4 State.reset = 0xFF04FF01 ∧ hostRead 5 State.reset = 0 ∧ hostRead 6 State.reset = 0 ∧
    hostRead 7 State.reset = 0 ∧ hostRead 0 State.reset = 0 ∧
    (∀ j, State.reset.wrByte j = Config.powerOnWrbuf State.reset.powerOns j ∧
      State.reset.rdByte j = Config.powerOnRdbuf State.reset.powerOns j) ∧
    State.reset.op = .illegal ∧ State.reset.phase = .idle ∧ State.reset.k = 0 ∧ State.reset.isOpen = false ∧
    State.reset.csN = true ∧ State.reset.sclk = false ∧ State.reset.mosi = false)

/-- R113, R114: a reset takes the place of the step: the host's other turns wait, the device keeps its state but for the
CS↑ that ends an open frame. That the trace records that CS↑, and that `hrdata` clears, are the model's (log 8, log 9). -/
def Obligations.ResetEndsAnOpenFrame : Prop :=
  ∀ (s : State) (rest : List Turn), s.schedule = .reset :: rest →
    ∃ t, step s = .next t ∧ t.schedule = rest ∧ t.draws = s.draws ∧ t.hrdata = 0 ∧
      (s.isOpen = true → t.device = s.device.csUp ∧ t.trace = .csUp :: s.trace) ∧
      (s.isOpen = false → t.device = s.device ∧ t.trace = s.trace)

/-- R50, R111, R112: a power cycle. The block's loses every register and keeps nothing but the outside: the device, and so the
array, stays, but for the CS↑ that ends an open frame (log 8). The device's keeps the array, the ID bytes and the whole
block, and leaves it awake with WEL and bit 0 of its status 0. That the two are separate turns, and what the device makes of
a transaction it was powered up in, are the model's (log 21). -/
def Obligations.PowerCyclesKeepTheArray : Prop :=
  (∀ (s : State) (rest : List Turn), s.schedule = .powerOn :: rest →
    ∃ t, step s = .next t ∧ t.schedule = rest ∧ (s.isOpen = false → t.device = s.device) ∧
      (s.isOpen = true → t.device = s.device.csUp)) ∧
  (∀ (s : State) (rest : List Turn) (l : List Byte), s.schedule = .devicePowerUp :: rest → s.device = .oracle l →
    step s = .next { s with schedule := rest }) ∧
  (∀ (s : State) (rest : List Turn) (r : RefDevice), s.schedule = .devicePowerUp :: rest → s.device = .reference r →
    ∃ r', step s = .next { s with schedule := rest, device := .reference r', draws := s.draws + 1 } ∧
      (∀ x, r'.arrByte x = r.arrByte x) ∧ r'.id = r.id ∧ r'.sr.getLsbD 1 = false ∧ r'.sr.getLsbD 0 = false ∧
      r'.asleep = false ∧ r'.ignoring = s.isOpen)

/-- The power-on state meets the invariant. -/
def Obligations.PowerOnMeetsInvariant : Prop := State.reset.Inv

/-! ### Invariants of every run -/

/-- Every step keeps the invariant (R35, R64, R77, R81, R95, and the canonical form of every memory). -/
def Obligations.StepKeepsInvariant : Prop := ∀ s t : State, s.Inv → step s = .next t → t.Inv

/-- R35: what holds in every reachable state. -/
def Obligations.ReachableStatesAreCoherent : Prop :=
  ∀ s : State, Reachable s →
    (s.busy = false ↔ s.phase = .idle) ∧ (s.csN = false ↔ s.isOpen = true) ∧ (s.isOpen = true → s.busy = true) ∧
    (s.wakeNeeded = true → s.wel = .clear) ∧ (s.done = true → s.busy = false)

/-- R99: no step of a state that meets the invariant faults or refuses. -/
def Obligations.StepNeverStops : Prop := ∀ s : State, s.Inv → ∃ t, step s = .next t

/-- R103, R125: a running command completes within 2064 sequencer steps, whatever the device answers. -/
def Obligations.EveryCommandCompletes : Prop :=
  ∀ s : State, s.Inv → s.busy = true → s.hostSilent →
    ∃ n t, n ≤ 2064 ∧ s.run n = .next t ∧ t.busy = false ∧ t.done = true

/-- R74: chip-select is high between frames, in every phase without a frame, at every completion, and after reset. -/
def Obligations.ChipSelectIsReleased : Prop :=
  ∀ s : State, Reachable s →
    (s.phase.framed = true → s.pos = 0 → s.csN = true) ∧
    (s.phase.framed = false → s.phase ≠ .waking → s.csN = true) ∧
    (s.phase = .waking → s.pos ≠ 1 → s.csN = true) ∧
    (∀ t, step s = .next t → s.busy = true → t.busy = false → t.csN = true ∧ t.isOpen = false) ∧
    (∀ t, s.resetTurn → step s = .next t → t.csN = true)

/-- R64, R65, R66, R69, R73: a step makes at most one bus event; chip-select falls only when it is high, a byte is
exchanged and chip-select rises only when it is low, and a wait happens with it high. -/
def Obligations.OneTransactionAtATime : Prop :=
  ∀ s t : State, s.Inv → step s = .next t →
    (t.trace = s.trace ∨ ∃ e, t.trace = e :: s.trace) ∧
    (t.trace = .csDown :: s.trace → s.isOpen = false ∧ t.isOpen = true ∧ t.csN = false) ∧
    (∀ o, t.trace = .sent o :: s.trace → s.isOpen = true ∧ t.isOpen = true) ∧
    (∀ o i, t.trace = .exchanged o i :: s.trace → o = 0 ∧ s.isOpen = true ∧ t.isOpen = true) ∧
    (t.trace = .csUp :: s.trace → s.isOpen = true ∧ t.isOpen = false ∧ t.csN = true) ∧
    (∀ w, t.trace = .wait w :: s.trace → s.isOpen = false ∧ t.isOpen = false)

/-- R79: once MISUSE is set and the running command is over, nothing happens until a reset or a power cycle of the block: no
command starts and no bus event happens, whatever else the host does; the device changes only by a power cycle of its own. -/
def Obligations.MisuseLocksUntilReset : Prop :=
  ∀ (n : Nat) (s t : State), s.Inv → s.misuse = true → s.busy = false → (∀ x ∈ s.schedule, x ≠ .reset ∧ x ≠ .powerOn) →
    s.run n = .next t →
    t.misuse = true ∧ t.busy = false ∧ t.trace = s.trace ∧ ((∀ x ∈ s.schedule, x ≠ .devicePowerUp) → t.device = s.device)

/-- R117: a host that does not write CMD while a command runs never sets MISUSE. -/
def Obligations.WaitingHostNeverMisuses : Prop :=
  ∀ s t : State, s.Inv → s.hostWaits → s.misuse = false → step s = .next t → t.misuse = false

/-- R23: the only ways each flag and bookkeeping register changes. A step that is no reset and no power-on changes BUSY
by accepting or completing a command; DONE and RESULT likewise; sets MISUSE by a CMD write while busy; WAKE_NEEDED at
the end of a SLEEP frame or of a wake pulse; WEL_STATE at the end of a frame; LAST_SR where an RDSR frame receives its
byte; POLL_COUNT at a poll or at acceptance. That WEL_STATE does not change where WRITE_PAGE is rejected is R23 and R82
against R93 (log 22). That WEL_STATE and WAKE_NEEDED change at the frame's end also where that completes the command is
R82 and R92 against R45 (log 20). -/
def Obligations.FlagsChangeOnlyAsListed : Prop :=
  ∀ s t : State, s.Inv → step s = .next t → ¬s.resetTurn →
    (s.busy = false → t.busy = true → t.phase = .accepted ∧ t.done = false ∧ t.result = .ok ∧ t.pollCount = 0 ∧
      ∃ k w rest, k.toNat = 0 ∧ s.schedule = .host (.write k w) :: rest ∧ t.op = decodeOp w) ∧
    (s.busy = true → t.busy = false → t.done = true ∧ s.sequencerTurn) ∧
    (t.done ≠ s.done → t.busy ≠ s.busy) ∧
    (t.result ≠ s.result → t.busy ≠ s.busy) ∧
    (t.misuse ≠ s.misuse → t.misuse = true ∧ s.busy = true ∧
      ∃ k w rest, k.toNat = 0 ∧ s.schedule = .host (.write k w) :: rest) ∧
    (s.wakeNeeded = false → t.wakeNeeded = true → s.sequencerTurn ∧ s.closing ∧ s.frame = .sleep) ∧
    (s.wakeNeeded = true → t.wakeNeeded = false → s.sequencerTurn ∧ s.phase = .waking ∧ s.pos = 2) ∧
    (t.wel ≠ s.wel → s.sequencerTurn ∧ s.closing) ∧
    (t.lastSr ≠ s.lastSr → s.sequencerTurn ∧ s.phase.framed = true ∧ s.frame = .rdsr ∧ s.pos = 2) ∧
    (t.pollCount ≠ s.pollCount →
      (s.sequencerTurn ∧ s.phase = .polling ∧ s.pos = 2 ∧ t.pollCount = s.pollCount + 1) ∨
      (s.busy = false ∧ t.busy = true ∧ t.pollCount = 0))

/-- R45: what completion comes after. Every change of RDBUF, LAST_SR and POLL_COUNT is in a step before the one that sets
BUSY = 0; while BUSY = 0 nothing a command writes changes, but that acceptance clears POLL_COUNT; so a host that reads
BUSY = 0 and DONE = 1 sees every effect of the command. WEL_STATE and WAKE_NEEDED are final at BUSY = 0 too, but the model
changes them in the completing step itself, as R80, R82 and R92 say and not in one before it: its choice (log 20). -/
def Obligations.CompletionComesAfterItsEffects : Prop :=
  ∀ s t : State, s.Inv → step s = .next t → ¬s.resetTurn →
    (s.busy = true → t.busy = false → t.rdbuf = s.rdbuf ∧ t.lastSr = s.lastSr ∧ t.pollCount = s.pollCount) ∧
    (s.busy = false → t.rdbuf = s.rdbuf ∧ t.lastSr = s.lastSr ∧ t.wakeNeeded = s.wakeNeeded ∧ t.wel = s.wel ∧
      (t.busy = false → t.pollCount = s.pollCount ∧ t.done = s.done ∧ t.result = s.result) ∧
      (t.busy = true → t.pollCount = 0))

/-- R82: the write-enable-latch FSM, every row and column, and no other change but a reset's. R82 speaks of the status
byte the frame received; the statement reads it from LAST_SR, where the model finds it (R19, R85, R95; DEDUCED, log 10).
That a WRITE_PAGE rejected in validation leaves `s.wel` follows R77 and R82 against R93, the model's choice (log 22).
That it changes at the frame's end also where that completes the command is R82 against R45 (log 20). -/
def Obligations.LatchFollowsItsTable : Prop :=
  ∀ s t : State, s.Inv → step s = .next t → ¬s.resetTurn →
    (s.sequencerTurn → s.closing →
      (s.frame = .wren → t.wel = .requested) ∧
      (s.frame = .rdsr → welBit s.lastSr = true →
        (s.wel = .clear → t.wel = .clear) ∧ (s.wel = .requested → t.wel = .verified) ∧
        (s.wel = .verified → t.wel = .verified)) ∧
      (s.frame = .rdsr → welBit s.lastSr = false → t.wel = .clear) ∧
      (s.frame = .read ∨ s.frame = .rdid →
        (s.wel = .clear → t.wel = .clear) ∧ (s.wel = .requested → t.wel = .requested) ∧
        (s.wel = .verified → t.wel = .requested)) ∧
      (s.frame = .write → t.wel = .clear) ∧
      (s.frame = .wrdi ∨ s.frame = .wrsr ∨ s.frame = .sleep → t.wel = .clear)) ∧
    (¬(s.sequencerTurn ∧ s.closing) → t.wel = s.wel)

/-- R81, R122: where a WRITE frame is about to begin, the latch is WL_VERIFIED, the last bus events are a whole RDSR frame
whose status byte has bit 1 = 1, and before it there is a WREN frame with only READ, RDID and bit-1 = 1 RDSR frames
between. -/
def Obligations.WriteFramesFollowAConfirmingRdsr : Prop :=
  ∀ s t : State, Reachable s → step s = .next t → s.isOpen = false → t.isOpen = true → t.frame = .write →
    t.phase.framed = true →
    s.wel = .verified ∧
    ∃ sr l, s.trace = .csUp :: .exchanged 0 sr :: .sent 0x05 :: .csDown :: l ∧ welBit sr = true ∧ WrenPending l

/-! ### The host port -/

/-- R12, R14 to R20, R37: what a host read returns at every index, bit by bit, and that it changes nothing but the
`hrdata` pins. -/
def Obligations.HostReadsFollowTheMap : Prop :=
  ∀ (s : State) (k : BitVec 10) (rest : List Turn), s.schedule = .host (.read k) :: rest →
    ∃ v : Word, step s = .next { s with schedule := rest, hrdata := v } ∧
      (k.toNat = 0 → v = 0) ∧
      (k.toNat = 1 →
        v.getLsbD 0 = s.busy ∧ v.getLsbD 1 = s.done ∧
        (s.result = .ok → v.extractLsb' 2 3 = 0) ∧ (s.result = .addressOutOfRange → v.extractLsb' 2 3 = 1) ∧
        (s.result = .writeNotEnabled → v.extractLsb' 2 3 = 2) ∧ (s.result = .deviceTimeout → v.extractLsb' 2 3 = 3) ∧
        (s.result = .illegalCommand → v.extractLsb' 2 3 = 4) ∧
        v.getLsbD 5 = s.misuse ∧ v.getLsbD 6 = s.wakeNeeded ∧
        (s.wel = .clear → v.extractLsb' 7 2 = 0) ∧ (s.wel = .requested → v.extractLsb' 7 2 = 1) ∧
        (s.wel = .verified → v.extractLsb' 7 2 = 2) ∧ v.extractLsb' 9 23 = 0) ∧
      (k.toNat = 2 → v = s.addr) ∧
      (k.toNat = 3 → v.toNat = s.len.toNat) ∧
      (k.toNat = 4 →
        v.getLsbD 0 = s.cfg.pollEn ∧ v.extractLsb' 1 7 = 0 ∧ v.extractLsb' 8 8 = s.cfg.pollMax ∧
        v.extractLsb' 16 4 = s.cfg.idLen ∧ v.extractLsb' 20 4 = 0 ∧ v.extractLsb' 24 8 = s.cfg.clkDiv) ∧
      (k.toNat = 5 → v.toNat = s.wrsrData.toNat) ∧
      (k.toNat = 6 → v.toNat = s.lastSr.toNat) ∧
      (k.toNat = 7 → v.toNat = s.pollCount.toNat) ∧
      (8 ≤ k.toNat ∧ k.toNat < 256 ∨ 768 ≤ k.toNat → v = 0) ∧
      (256 ≤ k.toNat ∧ k.toNat < 512 → ∀ b, b < 4 →
        v.extractLsb' (8 * b) 8 = s.wrByte (4 * (k.toNat - 256) + b)) ∧
      (512 ≤ k.toNat ∧ k.toNat < 768 → ∀ b, b < 4 →
        v.extractLsb' (8 * b) 8 = s.rdByte (4 * (k.toNat - 512) + b))

/-- R37, R118: what a host write does at every index but CMD, and that it does nothing while a command runs.
`BufferWindowsAreLittleEndian` gives the bytes of `Buffer.putWord`. -/
def Obligations.HostWritesFollowTheMap : Prop :=
  ∀ (s : State) (k : BitVec 10) (w : Word) (rest : List Turn), s.schedule = .host (.write k w) :: rest → k.toNat ≠ 0 →
    (s.busy = true → step s = .next { s with schedule := rest }) ∧
    (s.busy = false →
      (k.toNat = 2 → step s = .next { s with schedule := rest, addr := w }) ∧
      (k.toNat = 3 → step s = .next { s with schedule := rest, len := w.extractLsb' 0 11 }) ∧
      (k.toNat = 4 → step s = .next { s with
        schedule := rest
        cfg := { pollEn := w.getLsbD 0, pollMax := w.extractLsb' 8 8, idLen := w.extractLsb' 16 4,
                 clkDiv := w.extractLsb' 24 8 } }) ∧
      (k.toNat = 5 → step s = .next { s with schedule := rest, wrsrData := w.extractLsb' 0 8 }) ∧
      (k.toNat = 1 ∨ 6 ≤ k.toNat ∧ k.toNat < 256 ∨ 512 ≤ k.toNat → step s = .next { s with schedule := rest }) ∧
      (256 ≤ k.toNat ∧ k.toNat < 512 → step s = .next { s with
        schedule := rest, wrbuf := Buffer.putWord s.wrbuf (k.toNat - 256) w }))

/-- R38: the buffer windows are little-endian: a word written to the WRBUF window lands in its four bytes and no others,
and reads back; a word of the RDBUF window is its four bytes. -/
def Obligations.BufferWindowsAreLittleEndian : Prop :=
  (∀ (s : State) (k : Nat) (w : Word), k < 256 → s.busy = false →
    ∃ t, step { s with schedule := [.host (.write (BitVec.ofNat 10 (256 + k)) w)] } = .next t ∧
      t.wrByte (4 * k) = w.extractLsb' 0 8 ∧ t.wrByte (4 * k + 1) = w.extractLsb' 8 8 ∧
      t.wrByte (4 * k + 2) = w.extractLsb' 16 8 ∧ t.wrByte (4 * k + 3) = w.extractLsb' 24 8 ∧
      (∀ j, j < 4 * k ∨ 4 * k + 3 < j → t.wrByte j = s.wrByte j) ∧
      (∀ j, t.rdByte j = s.rdByte j) ∧
      hostRead (BitVec.ofNat 10 (256 + k)) t = w) ∧
  (∀ (s : State) (k : Nat), k < 256 →
    hostRead (BitVec.ofNat 10 (512 + k)) s =
      s.rdByte (4 * k + 3) ++ s.rdByte (4 * k + 2) ++ s.rdByte (4 * k + 1) ++ s.rdByte (4 * k))

/-- R76: the three cases of a write to CMD. -/
def Obligations.CommandWriteAcceptsOrMarksMisuse : Prop :=
  ∀ (s : State) (w : Word) (rest : List Turn), s.Inv → s.schedule = .host (.write 0 w) :: rest →
    (s.misuse = true → step s = .next { s with schedule := rest }) ∧
    (s.misuse = false → s.busy = true → step s = .next { s with schedule := rest, misuse := true }) ∧
    (s.misuse = false → s.busy = false → step s = .next { s with
      schedule := rest
      op := decodeOp w
      busy := true
      done := false
      result := .ok
      pollCount := 0
      k := 0
      phase := .accepted })

/-! ### The life of a command -/

/-- R77, R78: validation, in its order, before any bus activity; a rejected command changes nothing but BUSY, DONE,
RESULT and the phase. That this keeps `s.wel` for a rejected WRITE_PAGE too, as R77 says and against R93's "always
WL_CLEAR", is the model's choice between the two (log 22). `bodyStart` gives the first phase and frame of the body (R27). -/
def Obligations.ValidationDecidesBeforeTheBus : Prop :=
  ∀ (i : Instr) (o : Op) (s : State), i.op? = some o → s.phase = .accepted →
    (o = .illegal → exec i s = .next { s with result := .illegalCommand, done := true, busy := false, phase := .idle }) ∧
    (o = .read ∨ o = .write ∨ o = .writePage →
      ¬(s.addr.toNat < 32768 ∧ s.len.toNat ≤ 1024 ∧ s.addr.toNat + s.len.toNat ≤ 32768) →
      exec i s = .next { s with result := .addressOutOfRange, done := true, busy := false, phase := .idle }) ∧
    (o = .write → (s.addr.toNat < 32768 ∧ s.len.toNat ≤ 1024 ∧ s.addr.toNat + s.len.toNat ≤ 32768) →
      s.wel ≠ .verified →
      exec i s = .next { s with result := .writeNotEnabled, done := true, busy := false, phase := .idle }) ∧
    (o ≠ .illegal →
      (o = .read ∨ o = .write ∨ o = .writePage →
        s.addr.toNat < 32768 ∧ s.len.toNat ≤ 1024 ∧ s.addr.toNat + s.len.toNat ≤ 32768) →
      (o = .write → s.wel = .verified) →
      (s.wakeNeeded = true → exec i s = .next { s with phase := .waking, pos := 0 }) ∧
      (s.wakeNeeded = false → exec i s =
        .next { s with phase := (bodyStart o).1, frame := (bodyStart o).2, pos := 0 }))

/-- R89: the wake pulse of every command that has a body, step by step; it exchanges no byte and changes neither the
latch nor LAST_SR. -/
def Obligations.WakePulseIsThreeSteps : Prop :=
  ∀ (i : Instr) (o : Op) (s : State), i.op? = some o → o ≠ .illegal → s.phase = .waking →
    (s.pos = 0 → exec i s = .next { s with
      csN := false, isOpen := true, sclk := false, mosi := false, pos := 1
      device := s.device.csDown, trace := .csDown :: s.trace }) ∧
    (s.pos = 1 → exec i s = .next { s with
      csN := true, isOpen := false, sclk := false, mosi := false, pos := 2
      device := s.device.csUp, trace := .csUp :: s.trace }) ∧
    (s.pos = 2 → exec i s = .next { s with
      wakeNeeded := false, phase := (bodyStart o).1, frame := (bodyStart o).2, pos := 0
      trace := .wait .wake :: s.trace })

/-- R88: a reserved command, once accepted, completes with ILLEGAL_COMMAND; nothing but STATUS and the phase changes, in
particular the bus, the latch and WAKE_NEEDED do not. -/
def Obligations.ReservedWordsCompleteIllegal : Prop :=
  ∀ (w : Word) (s : State), s.phase = .accepted →
    exec (.illegal w) s = .next { s with result := .illegalCommand, done := true, busy := false, phase := .idle }

/-! ### Frames, event by event

Each statement gives the exact next state of every event of a frame, so it says both what the event does and that it
changes nothing else. A frame's command and the frame's own row are named together. -/

/-- R83: WREN, the command and its frame `CS↓ 06 CS↑`. That `s.wel` changes in the completing step, as R80 and R82 say
and against R45, is the model's choice (log 20). -/
def Obligations.WrenSendsItsFrame : Prop :=
  ∀ (i : Instr) (s : State), i = .wren ∨ i = .wireWren → s.op = .wren → s.phase = .framing → s.frame = .wren →
    (s.pos = 0 → exec i s = .next { s with
      csN := false, isOpen := true, sclk := false, mosi := false, pos := 1
      device := s.device.csDown, trace := .csDown :: s.trace }) ∧
    (s.pos = 1 → exec i s = .next { s with
      sclk := false, mosi := false, pos := 2
      device := s.device.receive 0x06, draws := s.nextDraws, trace := .sent 0x06 :: s.trace }) ∧
    (s.pos = 2 → exec i s = .next { s with
      csN := true, isOpen := false, sclk := false, mosi := false, pos := 0
      device := s.device.csUp, trace := .csUp :: s.trace
      wel := .requested, result := .ok, done := true, busy := false, phase := .idle })

/-- R84: WRDI, the command and its frame `CS↓ 04 CS↑`. That `s.wel` changes in the completing step, as R80 and R82 say
and against R45, is the model's choice (log 20). -/
def Obligations.WrdiSendsItsFrame : Prop :=
  ∀ (i : Instr) (s : State), i = .wrdi ∨ i = .wireWrdi → s.op = .wrdi → s.phase = .framing → s.frame = .wrdi →
    (s.pos = 0 → exec i s = .next { s with
      csN := false, isOpen := true, sclk := false, mosi := false, pos := 1
      device := s.device.csDown, trace := .csDown :: s.trace }) ∧
    (s.pos = 1 → exec i s = .next { s with
      sclk := false, mosi := false, pos := 2
      device := s.device.receive 0x04, draws := s.nextDraws, trace := .sent 0x04 :: s.trace }) ∧
    (s.pos = 2 → exec i s = .next { s with
      csN := true, isOpen := false, sclk := false, mosi := false, pos := 0
      device := s.device.csUp, trace := .csUp :: s.trace
      wel := .clear, result := .ok, done := true, busy := false, phase := .idle })

/-- R85: RDSR, the command and its frame `CS↓ 05 [00→sr] CS↑`. The byte received goes to LAST_SR in the step of its
`Xfer`, and decides the latch at CS↑, where the model reads it from LAST_SR (log 10). That `s.wel` changes in the
completing step, as R80 and R82 say and against R45, is the model's choice (log 20). -/
def Obligations.RdsrSendsItsFrame : Prop :=
  ∀ (i : Instr) (s : State), i = .rdsr ∨ i = .wireRdsr → s.op = .rdsr → s.phase = .framing → s.frame = .rdsr →
    (s.pos = 0 → exec i s = .next { s with
      csN := false, isOpen := true, sclk := false, mosi := false, pos := 1
      device := s.device.csDown, trace := .csDown :: s.trace }) ∧
    (s.pos = 1 → exec i s = .next { s with
      sclk := false, mosi := false, pos := 2
      device := s.device.receive 0x05, draws := s.nextDraws, trace := .sent 0x05 :: s.trace }) ∧
    (s.pos = 2 → exec i s = .next { s with
      sclk := false, mosi := false, pos := 3, lastSr := s.misoByte
      device := s.device.receive 0x00, draws := s.nextDraws, trace := .exchanged 0x00 s.misoByte :: s.trace }) ∧
    (s.pos = 3 → exec i s = .next { s with
      csN := true, isOpen := false, sclk := false, mosi := false, pos := 0
      device := s.device.csUp, trace := .csUp :: s.trace
      wel := if s.lastSr.getLsbD 1 = true then (if s.wel = .clear then .clear else .verified) else .clear
      result := .ok, done := true, busy := false, phase := .idle })

/-- R86: WRSR, the command and its frame `CS↓ 01 nn CS↑`, nn = WRSR_DATA. That `s.wel` changes in the completing step,
as R80 and R82 say and against R45, is the model's choice (log 20). -/
def Obligations.WrsrSendsItsFrame : Prop :=
  ∀ (i : Instr) (s : State), i = .wrsr ∨ i = .wireWrsr → s.op = .wrsr → s.phase = .framing → s.frame = .wrsr →
    (s.pos = 0 → exec i s = .next { s with
      csN := false, isOpen := true, sclk := false, mosi := false, pos := 1
      device := s.device.csDown, trace := .csDown :: s.trace }) ∧
    (s.pos = 1 → exec i s = .next { s with
      sclk := false, mosi := false, pos := 2
      device := s.device.receive 0x01, draws := s.nextDraws, trace := .sent 0x01 :: s.trace }) ∧
    (s.pos = 2 → exec i s = .next { s with
      sclk := false, mosi := false, pos := 3
      device := s.device.receive s.wrsrData, draws := s.nextDraws, trace := .sent s.wrsrData :: s.trace }) ∧
    (s.pos = 3 → exec i s = .next { s with
      csN := true, isOpen := false, sclk := false, mosi := false, pos := 0
      device := s.device.csUp, trace := .csUp :: s.trace
      wel := .clear, result := .ok, done := true, busy := false, phase := .idle })

/-- R92: SLEEP, the command and its frame `CS↓ ss CS↑`, ss = SLEEP_OPCODE whatever its value; then WAKE_NEEDED is set.
That `s.wel` and WAKE_NEEDED change in the completing step, as R80, R82 and R92 say and against R45, is the model's
choice (log 20). -/
def Obligations.SleepSendsItsFrame : Prop :=
  ∀ (i : Instr) (s : State), i = .sleep ∨ i = .wireSleep → s.op = .sleep → s.phase = .framing → s.frame = .sleep →
    (s.pos = 0 → exec i s = .next { s with
      csN := false, isOpen := true, sclk := false, mosi := false, pos := 1
      device := s.device.csDown, trace := .csDown :: s.trace }) ∧
    (s.pos = 1 → exec i s = .next { s with
      sclk := false, mosi := false, pos := 2
      device := s.device.receive Config.sleepOpcode, draws := s.nextDraws
      trace := .sent Config.sleepOpcode :: s.trace }) ∧
    (s.pos = 2 → exec i s = .next { s with
      csN := true, isOpen := false, sclk := false, mosi := false, pos := 0
      device := s.device.csUp, trace := .csUp :: s.trace
      wel := .clear, wakeNeeded := true, result := .ok, done := true, busy := false, phase := .idle })

/-- R87: the raw WRITE, the command and its frame `02 addrHi addrLo` and the LEN bytes of WRBUF in order. That `s.wel`
changes in the completing step, as R80 and R82 say and against R45, is the model's choice (log 20). -/
def Obligations.WriteSendsItsFrame : Prop :=
  ∀ (i : Instr) (s : State), i = .write ∨ i = .wireWrite → s.op = .write → s.phase = .framing → s.frame = .write →
    (s.pos = 0 → exec i s = .next { s with
      csN := false, isOpen := true, sclk := false, mosi := false, pos := 1
      device := s.device.csDown, trace := .csDown :: s.trace }) ∧
    (∀ o : Byte, (s.pos = 1 ∧ o = 0x02) ∨ (s.pos = 2 ∧ o = s.addr.extractLsb' 8 8) ∨
        (s.pos = 3 ∧ o = s.addr.extractLsb' 0 8) ∨
        (4 ≤ s.pos ∧ s.pos < 4 + s.len.toNat ∧ o = s.wrByte (s.pos - 4)) →
      exec i s = .next { s with
        sclk := false, mosi := false, pos := s.pos + 1
        device := s.device.receive o, draws := s.nextDraws, trace := .sent o :: s.trace }) ∧
    (s.pos = 4 + s.len.toNat → exec i s = .next { s with
      csN := true, isOpen := false, sclk := false, mosi := false, pos := 0
      device := s.device.csUp, trace := .csUp :: s.trace
      wel := .clear, result := .ok, done := true, busy := false, phase := .idle })

/-- R90: READ, the command and its frame `03 addrHi addrLo` then LEN reads; byte `j` goes to RDBUF[j] in the step of its
`Xfer`, every other byte of RDBUF keeps its value. That `s.wel` changes in the completing step, as R80 and R82 say and
against R45, is the model's choice (log 20). -/
def Obligations.ReadSendsItsFrame : Prop :=
  ∀ (i : Instr) (s : State), i = .read ∨ i = .wireRead → s.op = .read → s.phase = .reading → s.frame = .read →
    (s.pos = 0 → exec i s = .next { s with
      csN := false, isOpen := true, sclk := false, mosi := false, pos := 1
      device := s.device.csDown, trace := .csDown :: s.trace }) ∧
    (∀ o : Byte, (s.pos = 1 ∧ o = 0x03) ∨ (s.pos = 2 ∧ o = s.addr.extractLsb' 8 8) ∨
        (s.pos = 3 ∧ o = s.addr.extractLsb' 0 8) →
      exec i s = .next { s with
        sclk := false, mosi := false, pos := s.pos + 1
        device := s.device.receive o, draws := s.nextDraws, trace := .sent o :: s.trace }) ∧
    (∀ j, j < s.len.toNat → j < 1024 → s.pos = 4 + j → ∃ b, exec i s = .next { s with
        sclk := false, mosi := false, pos := s.pos + 1, rdbuf := b
        device := s.device.receive 0x00, draws := s.nextDraws, trace := .exchanged 0x00 s.misoByte :: s.trace } ∧
      ∀ x, Memory.read (Config.powerOnRdbuf s.powerOns) b x = if x = j then s.misoByte else s.rdByte x) ∧
    (s.pos = 4 + s.len.toNat → exec i s = .next { s with
      csN := true, isOpen := false, sclk := false, mosi := false, pos := 0
      device := s.device.csUp, trace := .csUp :: s.trace
      wel := if s.wel = .clear then .clear else .requested
      result := .ok, done := true, busy := false, phase := .idle })

/-- R91: RDID, the command and its frame `9F` then ID_LEN reads into RDBUF. That `s.wel` changes in the completing step,
as R80 and R82 say and against R45, is the model's choice (log 20). -/
def Obligations.RdidSendsItsFrame : Prop :=
  ∀ (i : Instr) (s : State), i = .rdid ∨ i = .wireRdid → s.op = .rdid → s.phase = .identifying → s.frame = .rdid →
    (s.pos = 0 → exec i s = .next { s with
      csN := false, isOpen := true, sclk := false, mosi := false, pos := 1
      device := s.device.csDown, trace := .csDown :: s.trace }) ∧
    (s.pos = 1 → exec i s = .next { s with
      sclk := false, mosi := false, pos := 2
      device := s.device.receive 0x9F, draws := s.nextDraws, trace := .sent 0x9F :: s.trace }) ∧
    (∀ j, j < s.cfg.idLen.toNat → s.pos = 2 + j → ∃ b, exec i s = .next { s with
        sclk := false, mosi := false, pos := s.pos + 1, rdbuf := b
        device := s.device.receive 0x00, draws := s.nextDraws, trace := .exchanged 0x00 s.misoByte :: s.trace } ∧
      ∀ x, Memory.read (Config.powerOnRdbuf s.powerOns) b x = if x = j then s.misoByte else s.rdByte x) ∧
    (s.pos = 2 + s.cfg.idLen.toNat → exec i s = .next { s with
      csN := true, isOpen := false, sclk := false, mosi := false, pos := 0
      device := s.device.csUp, trace := .csUp :: s.trace
      wel := if s.wel = .clear then .clear else .requested
      result := .ok, done := true, busy := false, phase := .idle })

/-- R93, R94: the ends of WRITE_PAGE's first two frames, for the command and for the frames' own rows. At CS↑ the model
reads the status byte from LAST_SR (log 10), and the second frame is set up in the step of the first one's CS↑ (log 11).
That WRITE_NOT_ENABLED changes `s.wel` in the completing step, as R94 says and against R45, is the model's choice (log
20). -/
def Obligations.WritePageVerifiesOnce : Prop :=
  ∀ s : State, s.op = .writePage → s.phase = .writeEnabling →
    (∀ i : Instr, i = .writePage ∨ i = .wireWren → s.frame = .wren → s.pos = 2 → exec i s = .next { s with
      csN := true, isOpen := false, sclk := false, mosi := false, pos := 0
      device := s.device.csUp, trace := .csUp :: s.trace
      wel := .requested, frame := .rdsr }) ∧
    (∀ i : Instr, i = .writePage ∨ i = .wireRdsr → s.frame = .rdsr → s.pos = 3 → s.wel = .requested →
      (s.lastSr.getLsbD 1 = false → exec i s = .next { s with
        csN := true, isOpen := false, sclk := false, mosi := false, pos := 0
        device := s.device.csUp, trace := .csUp :: s.trace
        wel := .clear, result := .writeNotEnabled, done := true, busy := false, phase := .idle }) ∧
      (s.lastSr.getLsbD 1 = true → exec i s = .next { s with
        csN := true, isOpen := false, sclk := false, mosi := false, pos := 0
        device := s.device.csUp, trace := .csUp :: s.trace
        wel := .verified, phase := .writeEnableVerified }))

/-- R93, R96: WRITE_PAGE begins its WRITE frame; at the end of that frame it polls or settles; the settle wait completes
with OK. That the phase becomes POLLING or SETTLING in the step of the CS↑ is the model's (log 11). -/
def Obligations.WritePageWritesThenWaits : Prop :=
  ∀ s : State, s.op = .writePage →
    (s.phase = .writeEnableVerified → exec .writePage s = .next { s with
      csN := false, isOpen := true, sclk := false, mosi := false, pos := 1, phase := .writing, frame := .write
      device := s.device.csDown, trace := .csDown :: s.trace }) ∧
    (∀ i : Instr, i = .writePage ∨ i = .wireWrite → s.phase = .writing → s.frame = .write →
      s.pos = 4 + s.len.toNat →
      (s.cfg.pollEn = true → exec i s = .next { s with
        csN := true, isOpen := false, sclk := false, mosi := false, pos := 0
        device := s.device.csUp, trace := .csUp :: s.trace
        wel := .clear, phase := .polling, frame := .rdsr }) ∧
      (s.cfg.pollEn = false → exec i s = .next { s with
        csN := true, isOpen := false, sclk := false, mosi := false, pos := 0
        device := s.device.csUp, trace := .csUp :: s.trace
        wel := .clear, phase := .settling })) ∧
    (s.phase = .settling → exec .writePage s = .next { s with
      trace := .wait .settle :: s.trace, result := .ok, done := true, busy := false, phase := .idle })

/-- R70, R93 to R95: every event but the last of the frames WRITE_PAGE sends: chip-select falls, the frame's bytes go out,
the verify RDSR receives its status byte. `PollerIsBounded` gives a poll's status byte. -/
def Obligations.WritePageSendsItsFrames : Prop :=
  ∀ (i : Instr) (s : State), i = .writePage ∨ i = s.frame.instr → s.op = .writePage →
    (s.phase = .writeEnabling ∧ (s.frame = .wren ∨ s.frame = .rdsr)) ∨ (s.phase = .writing ∧ s.frame = .write) ∨
      (s.phase = .polling ∧ s.frame = .rdsr) →
    (s.pos = 0 → exec i s = .next { s with
      csN := false, isOpen := true, sclk := false, mosi := false, pos := 1
      device := s.device.csDown, trace := .csDown :: s.trace }) ∧
    (∀ o : Byte, (s.frame = .wren ∧ s.pos = 1 ∧ o = 0x06) ∨ (s.frame = .rdsr ∧ s.pos = 1 ∧ o = 0x05) ∨
        (s.frame = .write ∧ ((s.pos = 1 ∧ o = 0x02) ∨ (s.pos = 2 ∧ o = s.addr.extractLsb' 8 8) ∨
          (s.pos = 3 ∧ o = s.addr.extractLsb' 0 8) ∨
          (4 ≤ s.pos ∧ s.pos < 4 + s.len.toNat ∧ o = s.wrByte (s.pos - 4)))) →
      exec i s = .next { s with
        sclk := false, mosi := false, pos := s.pos + 1
        device := s.device.receive o, draws := s.nextDraws, trace := .sent o :: s.trace }) ∧
    (s.phase = .writeEnabling → s.frame = .rdsr → s.pos = 2 → exec i s = .next { s with
      sclk := false, mosi := false, pos := 3, lastSr := s.misoByte
      device := s.device.receive 0x00, draws := s.nextDraws, trace := .exchanged 0x00 s.misoByte :: s.trace })

/-- R95: the poller. The status byte counts in the step of its `Xfer`; at CS↑, where the model reads it from LAST_SR (log 10),
bit 1 = 0 completes with OK, the last allowed poll times out, and any other poll is followed by another. -/
def Obligations.PollerIsBounded : Prop :=
  ∀ (i : Instr) (s : State), i = .writePage ∨ i = .wireRdsr → s.op = .writePage → s.phase = .polling → s.frame = .rdsr →
    s.wel = .clear →
    (s.pos = 2 → exec i s = .next { s with
      sclk := false, mosi := false, pos := 3, lastSr := s.misoByte, k := s.k + 1, pollCount := s.k + 1
      device := s.device.receive 0x00, draws := s.nextDraws, trace := .exchanged 0x00 s.misoByte :: s.trace }) ∧
    (s.pos = 3 → s.lastSr.getLsbD 1 = false → exec i s = .next { s with
      csN := true, isOpen := false, sclk := false, mosi := false, pos := 0
      device := s.device.csUp, trace := .csUp :: s.trace
      result := .ok, done := true, busy := false, phase := .idle }) ∧
    (s.pos = 3 → s.lastSr.getLsbD 1 = true → s.k.toNat = s.cfg.pollMax.toNat + 1 → exec i s = .next { s with
      csN := true, isOpen := false, sclk := false, mosi := false, pos := 0
      device := s.device.csUp, trace := .csUp :: s.trace
      result := .deviceTimeout, done := true, busy := false, phase := .idle }) ∧
    (s.pos = 3 → s.lastSr.getLsbD 1 = true → s.k.toNat ≠ s.cfg.pollMax.toNat + 1 → exec i s = .next { s with
      csN := true, isOpen := false, sclk := false, mosi := false, pos := 0
      device := s.device.csUp, trace := .csUp :: s.trace })

/-- DESIGN CHOICE (log 14), no rule of the spec, which has no fault (R99): where an instruction is not at one of its own
positions (R27, R55, R88) the model stops by the name strayPosition: a frame row without its frame in progress, and a
reserved command past validation. No run reaches such a position. -/
def Obligations.InstructionsStopOffTheirPosition : Prop :=
  (∀ (i : Instr) (f : WireOp) (s : State), i.wire? = some f →
    ((s.phase.framed = true ∧ s.frame = f) → ∃ t, exec i s = .next t) ∧
    (¬(s.phase.framed = true ∧ s.frame = f) → exec i s = .fault .strayPosition)) ∧
  (∀ (w : Word) (s : State), s.phase ≠ .idle → s.phase ≠ .accepted → exec (.illegal w) s = .fault .strayPosition)

/-! ### Frames of the whole instruction set -/

/-- R23, R37: no instruction changes a register that only the host writes, WRBUF or the host's pending turns; and past
acceptance none changes the latched command or MISUSE. That `hrdata` keeps its word too is the model's choice (log 9). -/
def Obligations.InstructionsKeepTheHostsRegisters : Prop :=
  ∀ (i : Instr) (s t : State), exec i s = .next t →
    SameOperands s t ∧ (s.phase ≠ .idle → t.op = s.op ∧ t.misuse = s.misuse)

/-- R22: the bytes of RDBUF after any instruction: one received byte at the index of the frame's event, where that event
receives data, and every other byte as before. -/
def Obligations.ReadBufferFrame : Prop :=
  ∀ (i : Instr) (s t : State), exec i s = .next t → ∀ x,
    t.rdByte x =
      if s.phase.framed = true ∧ (s.frame = .read ∨ s.frame = .rdid) ∧ frameEvent s.frame s s.pos = .recv x ∧ x < 1024
      then s.misoByte else s.rdByte x

/-- R52: the reference device's array after any instruction: a byte changes only in a step that raises chip-select, only
for a WRITE frame the device did not ignore while its WEL was 1, and only at an address that frame stores to. -/
def Obligations.ArrayFrame : Prop :=
  ∀ (i : Instr) (s t : State) (r : RefDevice), s.device = .reference r → exec i s = .next t →
    ∃ r', t.device = .reference r' ∧ ∀ x, r'.arrByte x ≠ r.arrByte x →
      t.csN = true ∧ t.trace = .csUp :: s.trace ∧
      r.cmd = some .write ∧ r.ignoring = false ∧ welBit r.sr = true ∧
      ∃ j, j < r.data.length ∧ x = (r.a.toNat + j) % 32768

/-- R60: a command that carries no address runs the same whatever ADDR and LEN hold. -/
def Obligations.OnlyAddressCommandsReadAddrAndLen : Prop :=
  ∀ (i : Instr) (s t : State) (a : Word) (n : BitVec 11),
    i = .wren ∨ i = .wrdi ∨ i = .rdsr ∨ i = .wrsr ∨ i = .rdid ∨ i = .sleep ∨ i = .wireWren ∨ i = .wireWrdi ∨
      i = .wireRdsr ∨ i = .wireWrsr ∨ i = .wireRdid ∨ i = .wireSleep →
    exec i s = .next t → exec i { s with addr := a, len := n } = .next { t with addr := a, len := n }

/-- R71: outside a read phase, what the device answers reaches no register: another device gives the same next state but
for the device and the free-value counter. -/
def Obligations.DiscardedAnswersReachNoRegister : Prop :=
  ∀ (i : Instr) (s t : State) (d : Device) (n : Nat),
    (s.phase.framed = true → ∀ j, frameEvent s.frame s s.pos ≠ .recv j) →
    exec i s = .next t → ∃ d' n', exec i { s with device := d, draws := n } = .next { t with device := d', draws := n' }

/-- R79: a misuse does not disturb the running command: it takes the same step with MISUSE set. -/
def Obligations.MisuseDoesNotDisturbTheRunningCommand : Prop :=
  ∀ (i : Instr) (s t : State), s.phase ≠ .idle → exec i s = .next t →
    exec i { s with misuse := true } = .next { t with misuse := true }

/-! ### The device and the wire -/

/-- R49: a status byte may be any byte at all: for each there is a device that answers it, and the block keeps it whole. -/
def Obligations.StatusBytesMayBeAnything : Prop :=
  ∀ (s : State) (b : Byte) (l : List Byte), s.phase.framed = true → s.frame = .rdsr → s.pos = 2 →
    ∃ t, exec .wireRdsr { s with device := .oracle (b :: l) } = .next t ∧ t.lastSr = b ∧ t.device = .oracle l

/-- R52: what the reference device does at CS↑, row by row, on a frame it does not ignore, and what each row leaves alone.
The rows hold of frames of every length: a WRITE stores each data byte it received at its address modulo 32768, be there
none, and clears WEL. The model's choices (log 16): a WRSR frame with several data bytes takes the first as `new_status`,
and one with none (a SLEEP frame under SLEEP_OPCODE = 0x01) a free value, which the statement leaves open. -/
def Obligations.ReferenceDeviceEndsFrames : Prop :=
  ∀ r : RefDevice, r.ignoring = false →
    (r.cmd = some .wren → r.csUp.sr.getLsbD 1 = true ∧ (∀ b, b ≠ 1 → r.csUp.sr.getLsbD b = r.sr.getLsbD b)) ∧
    (r.cmd = some .wrdi → r.csUp.sr.getLsbD 1 = false ∧ (∀ b, b ≠ 1 → r.csUp.sr.getLsbD b = r.sr.getLsbD b)) ∧
    (r.cmd = some .wrsr →
      (r.sr.getLsbD 1 = false → r.csUp.sr = r.sr) ∧
      (r.sr.getLsbD 1 = true → r.csUp.sr.getLsbD 1 = false ∧ r.csUp.sr.getLsbD 0 = r.sr.getLsbD 0 ∧
        ∀ new l, r.data = new :: l → r.csUp.sr.extractLsb' 2 6 = new.extractLsb' 2 6)) ∧
    (r.cmd = some .write →
      (r.sr.getLsbD 1 = false → r.csUp.sr = r.sr ∧ r.csUp.arr = r.arr) ∧
      (r.sr.getLsbD 1 = true →
        r.csUp.sr.getLsbD 1 = false ∧ (∀ b, b ≠ 1 → r.csUp.sr.getLsbD b = r.sr.getLsbD b) ∧
        (r.data.length ≤ 32768 → ∀ j, j < r.data.length →
          r.csUp.arrByte ((r.a.toNat + j) % 32768) = r.data.getD j 0) ∧
        ∀ x, (∀ j, j < r.data.length → x ≠ (r.a.toNat + j) % 32768) → r.csUp.arrByte x = r.arrByte x)) ∧
    (r.cmd = some .sleep → r.csUp.asleep = true ∧ r.csUp.sr = r.sr) ∧
    (r.cmd = some .rdsr ∨ r.cmd = some .read ∨ r.cmd = some .rdid ∨ r.cmd = none → r.csUp.sr = r.sr) ∧
    (r.cmd ≠ some .write → r.csUp.arr = r.arr) ∧
    (r.cmd ≠ some .sleep → r.csUp.asleep = r.asleep) ∧
    r.csUp.id = r.id

/-- R52, R98: the reference device in every reachable state: bit 0 of its status register is 0, its array is canonical, and
it sleeps only while WAKE_NEEDED = 1. -/
def Obligations.ReferenceDeviceStaysCoherent : Prop :=
  ∀ (s : State) (r : RefDevice), Reachable s → s.device = .reference r →
    r.sr.getLsbD 0 = false ∧ Memory.wf Config.framSize r.arr = true ∧ (r.asleep = true → s.wakeNeeded = true)

/-- R67, R68, R126: one byte on the pins: eight rising edges of `sclk`, at which `mosi` carries the byte from bit 7 down
to bit 0, in 16 × (CLK_DIV + 1) cycles of `clk`. -/
def Obligations.ByteOnThePins : Prop :=
  ∀ (c : Cfg) (o : Byte),
    (xferWave c.halfPeriod o).length = 16 * (c.clkDiv.toNat + 1) ∧
    (∀ b, b < 8 → (risingSamples false (xferWave c.halfPeriod o))[b]? = some (o.getLsbD (7 - b))) ∧
    (risingSamples false (xferWave c.halfPeriod o)).length = 8 ∧
    assemble (risingSamples false (xferWave c.halfPeriod o)) = o

/-! ### Whole commands -/

/-- R83 to R87, R90 to R92, R89, R125: a single-frame command that passes validation sends the wake pulse when one is
needed and then its frame, whole, in exactly the steps R125 counts, and completes with OK. That `hrdata` keeps its word
(in `SameOperands`) is the model's choice (log 9). -/
def Obligations.SingleFrameCommandsRunWhole : Prop :=
  ∀ (f : WireOp) (s : State), s.Inv → s.Ready f.command →
    ∃ (t : State) (answers : List Byte),
      s.run (1 + s.wakeSteps + frameEvents f s) = .next t ∧ answers.length = readLen f s ∧
      t.busTrace = s.busTrace ++ s.wakeTrace ++ frameTrace f s answers ∧
      t.busy = false ∧ t.done = true ∧ t.result = .ok ∧ t.csN = true ∧ t.misuse = s.misuse ∧
      (t.wakeNeeded = true ↔ f = .sleep) ∧ t.wel = welAfter f t.lastSr s.wel ∧
      t.lastSr = (if f = .rdsr then answers.getD 0 0 else s.lastSr) ∧ t.pollCount = s.pollCount ∧
      (∀ x, t.rdByte x =
        if (f = .read ∨ f = .rdid) ∧ x < answers.length then answers.getD x 0 else s.rdByte x) ∧
      SameOperands s t

/-- R93 to R96, R125: a WRITE_PAGE that passes validation: WREN, one RDSR; if its byte has bit 1 = 0 it ends there with
WRITE_NOT_ENABLED; else the WRITE frame, and then either the settle wait or a bounded series of polls. That `hrdata` keeps
its word (in `SameOperands`) is the model's choice (log 9). -/
def Obligations.WritePageRunsWhole : Prop :=
  ∀ s : State, s.Inv → s.Ready .writePage →
    ∃ (n : Nat) (t : State) (v : Byte),
      s.run n = .next t ∧ t.busy = false ∧ t.done = true ∧ t.csN = true ∧ t.wel = .clear ∧ t.wakeNeeded = false ∧
      t.rdbuf = s.rdbuf ∧ t.misuse = s.misuse ∧ SameOperands s t ∧
      ((v.getLsbD 1 = false ∧ n = 1 + s.wakeSteps + 3 + 4 ∧ t.result = .writeNotEnabled ∧ t.lastSr = v ∧
          t.pollCount = 0 ∧
          t.busTrace = s.busTrace ++ s.wakeTrace ++ frameTrace .wren s [] ++ frameTrace .rdsr s [v]) ∨
       (v.getLsbD 1 = true ∧ s.cfg.pollEn = false ∧ n = 1 + s.wakeSteps + 3 + 4 + (5 + s.len.toNat) + 1 ∧
          t.result = .ok ∧ t.lastSr = v ∧ t.pollCount = 0 ∧
          t.busTrace = s.busTrace ++ s.wakeTrace ++ frameTrace .wren s [] ++ frameTrace .rdsr s [v] ++
            frameTrace .write s [] ++ [.wait .settle]) ∨
       (v.getLsbD 1 = true ∧ s.cfg.pollEn = true ∧ ∃ (polls : List Byte) (last : Byte),
          polls.length ≤ s.cfg.pollMax.toNat ∧ (∀ p ∈ polls, p.getLsbD 1 = true) ∧
          (last.getLsbD 1 = false ∧ t.result = .ok ∨
            last.getLsbD 1 = true ∧ polls.length = s.cfg.pollMax.toNat ∧ t.result = .deviceTimeout) ∧
          n = 1 + s.wakeSteps + 3 + 4 + (5 + s.len.toNat) + 4 * (polls.length + 1) ∧
          t.lastSr = last ∧ t.pollCount.toNat = polls.length + 1 ∧
          t.busTrace = s.busTrace ++ s.wakeTrace ++ frameTrace .wren s [] ++ frameTrace .rdsr s [v] ++
            frameTrace .write s [] ++ (polls ++ [last]).flatMap fun p => frameTrace .rdsr s [p]))

/-- R98: the round trip on the reference device: a WRITE_PAGE ends with OK, and a READ of the same range gives back the
bytes of WRBUF. The device must not be asleep unless the block knows it may be; the block must not be locked. -/
def Obligations.WritePageThenReadGivesTheData : Prop :=
  ∀ (s : State) (r : RefDevice), s.Inv → s.Ready .writePage → s.misuse = false → s.device = .reference r →
    (r.asleep = true → s.wakeNeeded = true) →
    ∃ n t, s.run n = .next t ∧ t.busy = false ∧ t.result = .ok ∧
      ∃ m u, State.run m { t with schedule := [.host (.write 0 0x00000005)] } = .next u ∧
        u.busy = false ∧ u.result = .ok ∧ u.schedule = [] ∧
        ∀ j, j < s.len.toNat → u.rdByte j = s.wrByte j
end

