-- ==== Sys2Proof/Laws/Decode.lean ====
section
/-! SUPPORT. The two fields of a command word, and that every command word decodes to a command. -/

namespace Sys2Proof

/-- A command word is its two fields (R54). -/
theorem word_split (w : Word) : w.toNat = 16 * (cmdRsvd w).toNat + (cmdOp w).toNat := by
  have := w.isLt
  simp only [cmdRsvd, cmdOp, BitVec.extractLsb'_toNat, Nat.shiftRight_eq_div_pow]
  omega

/-- The latch records exactly the decoded command: no command word decodes to a frame (R26, R58). -/
theorem decodeCommand_op? (w : Word) : (decodeCommand w).op? = some (decodeOp w) := by
  unfold decodeOp decodeCommand
  split
  · split <;> rfl
  · rfl

/-- The instruction the sequencer runs for a latched command is that command's. -/
theorem Op.op?_instr (o : Op) : o.instr.op? = some o := by
  cases o <;> rfl

/-- A reserved word decodes to ILLEGAL (R59). -/
theorem decodeCommand_reserved (w : Word) (h : reservedWord w = true) : decodeCommand w = .illegal w := by
  unfold decodeCommand
  split
  case isFalse => rfl
  case isTrue h0 =>
    have h1 : w.extractLsb' 4 28 = 0 := h0
    simp only [reservedWord, h1, bne_self_eq_false, Bool.false_or, Bool.not_eq_true', Bool.and_eq_false_iff,
      decide_eq_false_iff_not] at h
    have e : (cmdOp w).toNat = (w.extractLsb' 0 4).toNat := rfl
    split <;> first | omega | rfl

/-- A SLEEP opcode that is none of the other seven selects the SLEEP frame (R56). -/
theorem decodeWire_sleep (h : sleepOpcodeFresh = true) : decodeWire Config.sleepOpcode = some .sleep := by
  simp only [sleepOpcodeFresh, bne_iff_ne, Bool.and_eq_true, ne_eq, ← BitVec.toNat_inj] at h
  unfold decodeWire
  split <;> first | (exfalso; simp_all; done) | exact if_pos rfl

end Sys2Proof
end

