-- ==== Sys2Proof/Laws/State.lean ====
section
/-! SUPPORT. One lemma per field per shared update, so that no later proof unfolds one. -/

namespace Sys2Proof.Machine

/-! ### csAssert -/

@[simp] theorem csAssert_busy (s : State) : (csAssert s).busy = s.busy := rfl
@[simp] theorem csAssert_done (s : State) : (csAssert s).done = s.done := rfl
@[simp] theorem csAssert_result (s : State) : (csAssert s).result = s.result := rfl
@[simp] theorem csAssert_misuse (s : State) : (csAssert s).misuse = s.misuse := rfl
@[simp] theorem csAssert_addr (s : State) : (csAssert s).addr = s.addr := rfl
@[simp] theorem csAssert_len (s : State) : (csAssert s).len = s.len := rfl
@[simp] theorem csAssert_cfg (s : State) : (csAssert s).cfg = s.cfg := rfl
@[simp] theorem csAssert_wrsrData (s : State) : (csAssert s).wrsrData = s.wrsrData := rfl
@[simp] theorem csAssert_lastSr (s : State) : (csAssert s).lastSr = s.lastSr := rfl
@[simp] theorem csAssert_pollCount (s : State) : (csAssert s).pollCount = s.pollCount := rfl
@[simp] theorem csAssert_wrbuf (s : State) : (csAssert s).wrbuf = s.wrbuf := rfl
@[simp] theorem csAssert_rdbuf (s : State) : (csAssert s).rdbuf = s.rdbuf := rfl
@[simp] theorem csAssert_wel (s : State) : (csAssert s).wel = s.wel := rfl
@[simp] theorem csAssert_wakeNeeded (s : State) : (csAssert s).wakeNeeded = s.wakeNeeded := rfl
@[simp] theorem csAssert_op (s : State) : (csAssert s).op = s.op := rfl
@[simp] theorem csAssert_phase (s : State) : (csAssert s).phase = s.phase := rfl
@[simp] theorem csAssert_frame (s : State) : (csAssert s).frame = s.frame := rfl
@[simp] theorem csAssert_pos (s : State) : (csAssert s).pos = s.pos := rfl
@[simp] theorem csAssert_k (s : State) : (csAssert s).k = s.k := rfl
@[simp] theorem csAssert_isOpen (s : State) : (csAssert s).isOpen = true := rfl
@[simp] theorem csAssert_csN (s : State) : (csAssert s).csN = false := rfl
@[simp] theorem csAssert_sclk (s : State) : (csAssert s).sclk = false := rfl
@[simp] theorem csAssert_mosi (s : State) : (csAssert s).mosi = false := rfl
@[simp] theorem csAssert_hrdata (s : State) : (csAssert s).hrdata = s.hrdata := rfl
@[simp] theorem csAssert_device (s : State) : (csAssert s).device = s.device.csDown := rfl
@[simp] theorem csAssert_draws (s : State) : (csAssert s).draws = s.draws := rfl
@[simp] theorem csAssert_powerOns (s : State) : (csAssert s).powerOns = s.powerOns := rfl
@[simp] theorem csAssert_schedule (s : State) : (csAssert s).schedule = s.schedule := rfl
@[simp] theorem csAssert_trace (s : State) : (csAssert s).trace = (.csDown :: s.trace) := rfl

/-! ### csDeassert -/

@[simp] theorem csDeassert_busy (s : State) : (csDeassert s).busy = s.busy := rfl
@[simp] theorem csDeassert_done (s : State) : (csDeassert s).done = s.done := rfl
@[simp] theorem csDeassert_result (s : State) : (csDeassert s).result = s.result := rfl
@[simp] theorem csDeassert_misuse (s : State) : (csDeassert s).misuse = s.misuse := rfl
@[simp] theorem csDeassert_addr (s : State) : (csDeassert s).addr = s.addr := rfl
@[simp] theorem csDeassert_len (s : State) : (csDeassert s).len = s.len := rfl
@[simp] theorem csDeassert_cfg (s : State) : (csDeassert s).cfg = s.cfg := rfl
@[simp] theorem csDeassert_wrsrData (s : State) : (csDeassert s).wrsrData = s.wrsrData := rfl
@[simp] theorem csDeassert_lastSr (s : State) : (csDeassert s).lastSr = s.lastSr := rfl
@[simp] theorem csDeassert_pollCount (s : State) : (csDeassert s).pollCount = s.pollCount := rfl
@[simp] theorem csDeassert_wrbuf (s : State) : (csDeassert s).wrbuf = s.wrbuf := rfl
@[simp] theorem csDeassert_rdbuf (s : State) : (csDeassert s).rdbuf = s.rdbuf := rfl
@[simp] theorem csDeassert_wel (s : State) : (csDeassert s).wel = s.wel := rfl
@[simp] theorem csDeassert_wakeNeeded (s : State) : (csDeassert s).wakeNeeded = s.wakeNeeded := rfl
@[simp] theorem csDeassert_op (s : State) : (csDeassert s).op = s.op := rfl
@[simp] theorem csDeassert_phase (s : State) : (csDeassert s).phase = s.phase := rfl
@[simp] theorem csDeassert_frame (s : State) : (csDeassert s).frame = s.frame := rfl
@[simp] theorem csDeassert_pos (s : State) : (csDeassert s).pos = s.pos := rfl
@[simp] theorem csDeassert_k (s : State) : (csDeassert s).k = s.k := rfl
@[simp] theorem csDeassert_isOpen (s : State) : (csDeassert s).isOpen = false := rfl
@[simp] theorem csDeassert_csN (s : State) : (csDeassert s).csN = true := rfl
@[simp] theorem csDeassert_sclk (s : State) : (csDeassert s).sclk = false := rfl
@[simp] theorem csDeassert_mosi (s : State) : (csDeassert s).mosi = false := rfl
@[simp] theorem csDeassert_hrdata (s : State) : (csDeassert s).hrdata = s.hrdata := rfl
@[simp] theorem csDeassert_device (s : State) : (csDeassert s).device = s.device.csUp := rfl
@[simp] theorem csDeassert_draws (s : State) : (csDeassert s).draws = s.draws := rfl
@[simp] theorem csDeassert_powerOns (s : State) : (csDeassert s).powerOns = s.powerOns := rfl
@[simp] theorem csDeassert_schedule (s : State) : (csDeassert s).schedule = s.schedule := rfl
@[simp] theorem csDeassert_trace (s : State) : (csDeassert s).trace = (.csUp :: s.trace) := rfl

/-! ### xferSend -/

@[simp] theorem xferSend_busy (o : Byte) (s : State) : (xferSend o s).busy = s.busy := rfl
@[simp] theorem xferSend_done (o : Byte) (s : State) : (xferSend o s).done = s.done := rfl
@[simp] theorem xferSend_result (o : Byte) (s : State) : (xferSend o s).result = s.result := rfl
@[simp] theorem xferSend_misuse (o : Byte) (s : State) : (xferSend o s).misuse = s.misuse := rfl
@[simp] theorem xferSend_addr (o : Byte) (s : State) : (xferSend o s).addr = s.addr := rfl
@[simp] theorem xferSend_len (o : Byte) (s : State) : (xferSend o s).len = s.len := rfl
@[simp] theorem xferSend_cfg (o : Byte) (s : State) : (xferSend o s).cfg = s.cfg := rfl
@[simp] theorem xferSend_wrsrData (o : Byte) (s : State) : (xferSend o s).wrsrData = s.wrsrData := rfl
@[simp] theorem xferSend_lastSr (o : Byte) (s : State) : (xferSend o s).lastSr = s.lastSr := rfl
@[simp] theorem xferSend_pollCount (o : Byte) (s : State) : (xferSend o s).pollCount = s.pollCount := rfl
@[simp] theorem xferSend_wrbuf (o : Byte) (s : State) : (xferSend o s).wrbuf = s.wrbuf := rfl
@[simp] theorem xferSend_rdbuf (o : Byte) (s : State) : (xferSend o s).rdbuf = s.rdbuf := rfl
@[simp] theorem xferSend_wel (o : Byte) (s : State) : (xferSend o s).wel = s.wel := rfl
@[simp] theorem xferSend_wakeNeeded (o : Byte) (s : State) : (xferSend o s).wakeNeeded = s.wakeNeeded := rfl
@[simp] theorem xferSend_op (o : Byte) (s : State) : (xferSend o s).op = s.op := rfl
@[simp] theorem xferSend_phase (o : Byte) (s : State) : (xferSend o s).phase = s.phase := rfl
@[simp] theorem xferSend_frame (o : Byte) (s : State) : (xferSend o s).frame = s.frame := rfl
@[simp] theorem xferSend_pos (o : Byte) (s : State) : (xferSend o s).pos = s.pos := rfl
@[simp] theorem xferSend_k (o : Byte) (s : State) : (xferSend o s).k = s.k := rfl
@[simp] theorem xferSend_isOpen (o : Byte) (s : State) : (xferSend o s).isOpen = s.isOpen := rfl
@[simp] theorem xferSend_csN (o : Byte) (s : State) : (xferSend o s).csN = s.csN := rfl
@[simp] theorem xferSend_sclk (o : Byte) (s : State) : (xferSend o s).sclk = false := rfl
@[simp] theorem xferSend_mosi (o : Byte) (s : State) : (xferSend o s).mosi = false := rfl
@[simp] theorem xferSend_hrdata (o : Byte) (s : State) : (xferSend o s).hrdata = s.hrdata := rfl
@[simp] theorem xferSend_device (o : Byte) (s : State) : (xferSend o s).device = (s.device.receive o) := rfl
@[simp] theorem xferSend_draws (o : Byte) (s : State) : (xferSend o s).draws = s.nextDraws := rfl
@[simp] theorem xferSend_powerOns (o : Byte) (s : State) : (xferSend o s).powerOns = s.powerOns := rfl
@[simp] theorem xferSend_schedule (o : Byte) (s : State) : (xferSend o s).schedule = s.schedule := rfl
@[simp] theorem xferSend_trace (o : Byte) (s : State) : (xferSend o s).trace = (.sent o :: s.trace) := rfl

/-! ### xferRecv -/

@[simp] theorem xferRecv_busy (s : State) : (xferRecv s).busy = s.busy := rfl
@[simp] theorem xferRecv_done (s : State) : (xferRecv s).done = s.done := rfl
@[simp] theorem xferRecv_result (s : State) : (xferRecv s).result = s.result := rfl
@[simp] theorem xferRecv_misuse (s : State) : (xferRecv s).misuse = s.misuse := rfl
@[simp] theorem xferRecv_addr (s : State) : (xferRecv s).addr = s.addr := rfl
@[simp] theorem xferRecv_len (s : State) : (xferRecv s).len = s.len := rfl
@[simp] theorem xferRecv_cfg (s : State) : (xferRecv s).cfg = s.cfg := rfl
@[simp] theorem xferRecv_wrsrData (s : State) : (xferRecv s).wrsrData = s.wrsrData := rfl
@[simp] theorem xferRecv_lastSr (s : State) : (xferRecv s).lastSr = s.lastSr := rfl
@[simp] theorem xferRecv_pollCount (s : State) : (xferRecv s).pollCount = s.pollCount := rfl
@[simp] theorem xferRecv_wrbuf (s : State) : (xferRecv s).wrbuf = s.wrbuf := rfl
@[simp] theorem xferRecv_rdbuf (s : State) : (xferRecv s).rdbuf = s.rdbuf := rfl
@[simp] theorem xferRecv_wel (s : State) : (xferRecv s).wel = s.wel := rfl
@[simp] theorem xferRecv_wakeNeeded (s : State) : (xferRecv s).wakeNeeded = s.wakeNeeded := rfl
@[simp] theorem xferRecv_op (s : State) : (xferRecv s).op = s.op := rfl
@[simp] theorem xferRecv_phase (s : State) : (xferRecv s).phase = s.phase := rfl
@[simp] theorem xferRecv_frame (s : State) : (xferRecv s).frame = s.frame := rfl
@[simp] theorem xferRecv_pos (s : State) : (xferRecv s).pos = s.pos := rfl
@[simp] theorem xferRecv_k (s : State) : (xferRecv s).k = s.k := rfl
@[simp] theorem xferRecv_isOpen (s : State) : (xferRecv s).isOpen = s.isOpen := rfl
@[simp] theorem xferRecv_csN (s : State) : (xferRecv s).csN = s.csN := rfl
@[simp] theorem xferRecv_sclk (s : State) : (xferRecv s).sclk = false := rfl
@[simp] theorem xferRecv_mosi (s : State) : (xferRecv s).mosi = false := rfl
@[simp] theorem xferRecv_hrdata (s : State) : (xferRecv s).hrdata = s.hrdata := rfl
@[simp] theorem xferRecv_device (s : State) : (xferRecv s).device = (s.device.receive 0) := rfl
@[simp] theorem xferRecv_draws (s : State) : (xferRecv s).draws = s.nextDraws := rfl
@[simp] theorem xferRecv_powerOns (s : State) : (xferRecv s).powerOns = s.powerOns := rfl
@[simp] theorem xferRecv_schedule (s : State) : (xferRecv s).schedule = s.schedule := rfl
@[simp] theorem xferRecv_trace (s : State) : (xferRecv s).trace = (.exchanged 0 s.misoByte :: s.trace) := rfl

/-! ### busWait -/

@[simp] theorem busWait_busy (kind : WaitKind) (s : State) : (busWait kind s).busy = s.busy := rfl
@[simp] theorem busWait_done (kind : WaitKind) (s : State) : (busWait kind s).done = s.done := rfl
@[simp] theorem busWait_result (kind : WaitKind) (s : State) : (busWait kind s).result = s.result := rfl
@[simp] theorem busWait_misuse (kind : WaitKind) (s : State) : (busWait kind s).misuse = s.misuse := rfl
@[simp] theorem busWait_addr (kind : WaitKind) (s : State) : (busWait kind s).addr = s.addr := rfl
@[simp] theorem busWait_len (kind : WaitKind) (s : State) : (busWait kind s).len = s.len := rfl
@[simp] theorem busWait_cfg (kind : WaitKind) (s : State) : (busWait kind s).cfg = s.cfg := rfl
@[simp] theorem busWait_wrsrData (kind : WaitKind) (s : State) : (busWait kind s).wrsrData = s.wrsrData := rfl
@[simp] theorem busWait_lastSr (kind : WaitKind) (s : State) : (busWait kind s).lastSr = s.lastSr := rfl
@[simp] theorem busWait_pollCount (kind : WaitKind) (s : State) : (busWait kind s).pollCount = s.pollCount := rfl
@[simp] theorem busWait_wrbuf (kind : WaitKind) (s : State) : (busWait kind s).wrbuf = s.wrbuf := rfl
@[simp] theorem busWait_rdbuf (kind : WaitKind) (s : State) : (busWait kind s).rdbuf = s.rdbuf := rfl
@[simp] theorem busWait_wel (kind : WaitKind) (s : State) : (busWait kind s).wel = s.wel := rfl
@[simp] theorem busWait_wakeNeeded (kind : WaitKind) (s : State) : (busWait kind s).wakeNeeded = s.wakeNeeded := rfl
@[simp] theorem busWait_op (kind : WaitKind) (s : State) : (busWait kind s).op = s.op := rfl
@[simp] theorem busWait_phase (kind : WaitKind) (s : State) : (busWait kind s).phase = s.phase := rfl
@[simp] theorem busWait_frame (kind : WaitKind) (s : State) : (busWait kind s).frame = s.frame := rfl
@[simp] theorem busWait_pos (kind : WaitKind) (s : State) : (busWait kind s).pos = s.pos := rfl
@[simp] theorem busWait_k (kind : WaitKind) (s : State) : (busWait kind s).k = s.k := rfl
@[simp] theorem busWait_isOpen (kind : WaitKind) (s : State) : (busWait kind s).isOpen = s.isOpen := rfl
@[simp] theorem busWait_csN (kind : WaitKind) (s : State) : (busWait kind s).csN = s.csN := rfl
@[simp] theorem busWait_sclk (kind : WaitKind) (s : State) : (busWait kind s).sclk = s.sclk := rfl
@[simp] theorem busWait_mosi (kind : WaitKind) (s : State) : (busWait kind s).mosi = s.mosi := rfl
@[simp] theorem busWait_hrdata (kind : WaitKind) (s : State) : (busWait kind s).hrdata = s.hrdata := rfl
@[simp] theorem busWait_device (kind : WaitKind) (s : State) : (busWait kind s).device = s.device := rfl
@[simp] theorem busWait_draws (kind : WaitKind) (s : State) : (busWait kind s).draws = s.draws := rfl
@[simp] theorem busWait_powerOns (kind : WaitKind) (s : State) : (busWait kind s).powerOns = s.powerOns := rfl
@[simp] theorem busWait_schedule (kind : WaitKind) (s : State) : (busWait kind s).schedule = s.schedule := rfl
@[simp] theorem busWait_trace (kind : WaitKind) (s : State) : (busWait kind s).trace = (.wait kind :: s.trace) := rfl

/-! ### complete -/

@[simp] theorem complete_busy (code : Result) (s : State) : (complete code s).busy = false := rfl
@[simp] theorem complete_done (code : Result) (s : State) : (complete code s).done = true := rfl
@[simp] theorem complete_result (code : Result) (s : State) : (complete code s).result = code := rfl
@[simp] theorem complete_misuse (code : Result) (s : State) : (complete code s).misuse = s.misuse := rfl
@[simp] theorem complete_addr (code : Result) (s : State) : (complete code s).addr = s.addr := rfl
@[simp] theorem complete_len (code : Result) (s : State) : (complete code s).len = s.len := rfl
@[simp] theorem complete_cfg (code : Result) (s : State) : (complete code s).cfg = s.cfg := rfl
@[simp] theorem complete_wrsrData (code : Result) (s : State) : (complete code s).wrsrData = s.wrsrData := rfl
@[simp] theorem complete_lastSr (code : Result) (s : State) : (complete code s).lastSr = s.lastSr := rfl
@[simp] theorem complete_pollCount (code : Result) (s : State) : (complete code s).pollCount = s.pollCount := rfl
@[simp] theorem complete_wrbuf (code : Result) (s : State) : (complete code s).wrbuf = s.wrbuf := rfl
@[simp] theorem complete_rdbuf (code : Result) (s : State) : (complete code s).rdbuf = s.rdbuf := rfl
@[simp] theorem complete_wel (code : Result) (s : State) : (complete code s).wel = s.wel := rfl
@[simp] theorem complete_wakeNeeded (code : Result) (s : State) : (complete code s).wakeNeeded = s.wakeNeeded := rfl
@[simp] theorem complete_op (code : Result) (s : State) : (complete code s).op = s.op := rfl
@[simp] theorem complete_phase (code : Result) (s : State) : (complete code s).phase = .idle := rfl
@[simp] theorem complete_frame (code : Result) (s : State) : (complete code s).frame = s.frame := rfl
@[simp] theorem complete_pos (code : Result) (s : State) : (complete code s).pos = s.pos := rfl
@[simp] theorem complete_k (code : Result) (s : State) : (complete code s).k = s.k := rfl
@[simp] theorem complete_isOpen (code : Result) (s : State) : (complete code s).isOpen = s.isOpen := rfl
@[simp] theorem complete_csN (code : Result) (s : State) : (complete code s).csN = s.csN := rfl
@[simp] theorem complete_sclk (code : Result) (s : State) : (complete code s).sclk = s.sclk := rfl
@[simp] theorem complete_mosi (code : Result) (s : State) : (complete code s).mosi = s.mosi := rfl
@[simp] theorem complete_hrdata (code : Result) (s : State) : (complete code s).hrdata = s.hrdata := rfl
@[simp] theorem complete_device (code : Result) (s : State) : (complete code s).device = s.device := rfl
@[simp] theorem complete_draws (code : Result) (s : State) : (complete code s).draws = s.draws := rfl
@[simp] theorem complete_powerOns (code : Result) (s : State) : (complete code s).powerOns = s.powerOns := rfl
@[simp] theorem complete_schedule (code : Result) (s : State) : (complete code s).schedule = s.schedule := rfl
@[simp] theorem complete_trace (code : Result) (s : State) : (complete code s).trace = s.trace := rfl

/-! ### accept -/

@[simp] theorem accept_busy (o : Op) (s : State) : (accept o s).busy = true := rfl
@[simp] theorem accept_done (o : Op) (s : State) : (accept o s).done = false := rfl
@[simp] theorem accept_result (o : Op) (s : State) : (accept o s).result = .ok := rfl
@[simp] theorem accept_misuse (o : Op) (s : State) : (accept o s).misuse = s.misuse := rfl
@[simp] theorem accept_addr (o : Op) (s : State) : (accept o s).addr = s.addr := rfl
@[simp] theorem accept_len (o : Op) (s : State) : (accept o s).len = s.len := rfl
@[simp] theorem accept_cfg (o : Op) (s : State) : (accept o s).cfg = s.cfg := rfl
@[simp] theorem accept_wrsrData (o : Op) (s : State) : (accept o s).wrsrData = s.wrsrData := rfl
@[simp] theorem accept_lastSr (o : Op) (s : State) : (accept o s).lastSr = s.lastSr := rfl
@[simp] theorem accept_pollCount (o : Op) (s : State) : (accept o s).pollCount = 0 := rfl
@[simp] theorem accept_wrbuf (o : Op) (s : State) : (accept o s).wrbuf = s.wrbuf := rfl
@[simp] theorem accept_rdbuf (o : Op) (s : State) : (accept o s).rdbuf = s.rdbuf := rfl
@[simp] theorem accept_wel (o : Op) (s : State) : (accept o s).wel = s.wel := rfl
@[simp] theorem accept_wakeNeeded (o : Op) (s : State) : (accept o s).wakeNeeded = s.wakeNeeded := rfl
@[simp] theorem accept_op (o : Op) (s : State) : (accept o s).op = o := rfl
@[simp] theorem accept_phase (o : Op) (s : State) : (accept o s).phase = .accepted := rfl
@[simp] theorem accept_frame (o : Op) (s : State) : (accept o s).frame = s.frame := rfl
@[simp] theorem accept_pos (o : Op) (s : State) : (accept o s).pos = s.pos := rfl
@[simp] theorem accept_k (o : Op) (s : State) : (accept o s).k = 0 := rfl
@[simp] theorem accept_isOpen (o : Op) (s : State) : (accept o s).isOpen = s.isOpen := rfl
@[simp] theorem accept_csN (o : Op) (s : State) : (accept o s).csN = s.csN := rfl
@[simp] theorem accept_sclk (o : Op) (s : State) : (accept o s).sclk = s.sclk := rfl
@[simp] theorem accept_mosi (o : Op) (s : State) : (accept o s).mosi = s.mosi := rfl
@[simp] theorem accept_hrdata (o : Op) (s : State) : (accept o s).hrdata = s.hrdata := rfl
@[simp] theorem accept_device (o : Op) (s : State) : (accept o s).device = s.device := rfl
@[simp] theorem accept_draws (o : Op) (s : State) : (accept o s).draws = s.draws := rfl
@[simp] theorem accept_powerOns (o : Op) (s : State) : (accept o s).powerOns = s.powerOns := rfl
@[simp] theorem accept_schedule (o : Op) (s : State) : (accept o s).schedule = s.schedule := rfl
@[simp] theorem accept_trace (o : Op) (s : State) : (accept o s).trace = s.trace := rfl

/-! ### beginBody -/

@[simp] theorem beginBody_busy (p : Phase) (f : WireOp) (s : State) : (beginBody p f s).busy = s.busy := rfl
@[simp] theorem beginBody_done (p : Phase) (f : WireOp) (s : State) : (beginBody p f s).done = s.done := rfl
@[simp] theorem beginBody_result (p : Phase) (f : WireOp) (s : State) : (beginBody p f s).result = s.result := rfl
@[simp] theorem beginBody_misuse (p : Phase) (f : WireOp) (s : State) : (beginBody p f s).misuse = s.misuse := rfl
@[simp] theorem beginBody_addr (p : Phase) (f : WireOp) (s : State) : (beginBody p f s).addr = s.addr := rfl
@[simp] theorem beginBody_len (p : Phase) (f : WireOp) (s : State) : (beginBody p f s).len = s.len := rfl
@[simp] theorem beginBody_cfg (p : Phase) (f : WireOp) (s : State) : (beginBody p f s).cfg = s.cfg := rfl
@[simp] theorem beginBody_wrsrData (p : Phase) (f : WireOp) (s : State) : (beginBody p f s).wrsrData = s.wrsrData := rfl
@[simp] theorem beginBody_lastSr (p : Phase) (f : WireOp) (s : State) : (beginBody p f s).lastSr = s.lastSr := rfl
@[simp] theorem beginBody_pollCount (p : Phase) (f : WireOp) (s : State) : (beginBody p f s).pollCount = s.pollCount := rfl
@[simp] theorem beginBody_wrbuf (p : Phase) (f : WireOp) (s : State) : (beginBody p f s).wrbuf = s.wrbuf := rfl
@[simp] theorem beginBody_rdbuf (p : Phase) (f : WireOp) (s : State) : (beginBody p f s).rdbuf = s.rdbuf := rfl
@[simp] theorem beginBody_wel (p : Phase) (f : WireOp) (s : State) : (beginBody p f s).wel = s.wel := rfl
@[simp] theorem beginBody_wakeNeeded (p : Phase) (f : WireOp) (s : State) : (beginBody p f s).wakeNeeded = s.wakeNeeded := rfl
@[simp] theorem beginBody_op (p : Phase) (f : WireOp) (s : State) : (beginBody p f s).op = s.op := rfl
@[simp] theorem beginBody_phase (p : Phase) (f : WireOp) (s : State) : (beginBody p f s).phase = p := rfl
@[simp] theorem beginBody_frame (p : Phase) (f : WireOp) (s : State) : (beginBody p f s).frame = f := rfl
@[simp] theorem beginBody_pos (p : Phase) (f : WireOp) (s : State) : (beginBody p f s).pos = 0 := rfl
@[simp] theorem beginBody_k (p : Phase) (f : WireOp) (s : State) : (beginBody p f s).k = s.k := rfl
@[simp] theorem beginBody_isOpen (p : Phase) (f : WireOp) (s : State) : (beginBody p f s).isOpen = s.isOpen := rfl
@[simp] theorem beginBody_csN (p : Phase) (f : WireOp) (s : State) : (beginBody p f s).csN = s.csN := rfl
@[simp] theorem beginBody_sclk (p : Phase) (f : WireOp) (s : State) : (beginBody p f s).sclk = s.sclk := rfl
@[simp] theorem beginBody_mosi (p : Phase) (f : WireOp) (s : State) : (beginBody p f s).mosi = s.mosi := rfl
@[simp] theorem beginBody_hrdata (p : Phase) (f : WireOp) (s : State) : (beginBody p f s).hrdata = s.hrdata := rfl
@[simp] theorem beginBody_device (p : Phase) (f : WireOp) (s : State) : (beginBody p f s).device = s.device := rfl
@[simp] theorem beginBody_draws (p : Phase) (f : WireOp) (s : State) : (beginBody p f s).draws = s.draws := rfl
@[simp] theorem beginBody_powerOns (p : Phase) (f : WireOp) (s : State) : (beginBody p f s).powerOns = s.powerOns := rfl
@[simp] theorem beginBody_schedule (p : Phase) (f : WireOp) (s : State) : (beginBody p f s).schedule = s.schedule := rfl
@[simp] theorem beginBody_trace (p : Phase) (f : WireOp) (s : State) : (beginBody p f s).trace = s.trace := rfl

/-! ### closeFrame -/

@[simp] theorem closeFrame_busy (f : WireOp) (s : State) : (closeFrame f s).busy = s.busy := rfl
@[simp] theorem closeFrame_done (f : WireOp) (s : State) : (closeFrame f s).done = s.done := rfl
@[simp] theorem closeFrame_result (f : WireOp) (s : State) : (closeFrame f s).result = s.result := rfl
@[simp] theorem closeFrame_misuse (f : WireOp) (s : State) : (closeFrame f s).misuse = s.misuse := rfl
@[simp] theorem closeFrame_addr (f : WireOp) (s : State) : (closeFrame f s).addr = s.addr := rfl
@[simp] theorem closeFrame_len (f : WireOp) (s : State) : (closeFrame f s).len = s.len := rfl
@[simp] theorem closeFrame_cfg (f : WireOp) (s : State) : (closeFrame f s).cfg = s.cfg := rfl
@[simp] theorem closeFrame_wrsrData (f : WireOp) (s : State) : (closeFrame f s).wrsrData = s.wrsrData := rfl
@[simp] theorem closeFrame_lastSr (f : WireOp) (s : State) : (closeFrame f s).lastSr = s.lastSr := rfl
@[simp] theorem closeFrame_pollCount (f : WireOp) (s : State) : (closeFrame f s).pollCount = s.pollCount := rfl
@[simp] theorem closeFrame_wrbuf (f : WireOp) (s : State) : (closeFrame f s).wrbuf = s.wrbuf := rfl
@[simp] theorem closeFrame_rdbuf (f : WireOp) (s : State) : (closeFrame f s).rdbuf = s.rdbuf := rfl
@[simp] theorem closeFrame_wel (f : WireOp) (s : State) : (closeFrame f s).wel = (welAfter f s.lastSr s.wel) := rfl
@[simp] theorem closeFrame_wakeNeeded (f : WireOp) (s : State) : (closeFrame f s).wakeNeeded = (if f = .sleep then true else s.wakeNeeded) := rfl
@[simp] theorem closeFrame_op (f : WireOp) (s : State) : (closeFrame f s).op = s.op := rfl
@[simp] theorem closeFrame_phase (f : WireOp) (s : State) : (closeFrame f s).phase = s.phase := rfl
@[simp] theorem closeFrame_frame (f : WireOp) (s : State) : (closeFrame f s).frame = s.frame := rfl
@[simp] theorem closeFrame_pos (f : WireOp) (s : State) : (closeFrame f s).pos = 0 := rfl
@[simp] theorem closeFrame_k (f : WireOp) (s : State) : (closeFrame f s).k = s.k := rfl
@[simp] theorem closeFrame_isOpen (f : WireOp) (s : State) : (closeFrame f s).isOpen = s.isOpen := rfl
@[simp] theorem closeFrame_csN (f : WireOp) (s : State) : (closeFrame f s).csN = s.csN := rfl
@[simp] theorem closeFrame_sclk (f : WireOp) (s : State) : (closeFrame f s).sclk = s.sclk := rfl
@[simp] theorem closeFrame_mosi (f : WireOp) (s : State) : (closeFrame f s).mosi = s.mosi := rfl
@[simp] theorem closeFrame_hrdata (f : WireOp) (s : State) : (closeFrame f s).hrdata = s.hrdata := rfl
@[simp] theorem closeFrame_device (f : WireOp) (s : State) : (closeFrame f s).device = s.device := rfl
@[simp] theorem closeFrame_draws (f : WireOp) (s : State) : (closeFrame f s).draws = s.draws := rfl
@[simp] theorem closeFrame_powerOns (f : WireOp) (s : State) : (closeFrame f s).powerOns = s.powerOns := rfl
@[simp] theorem closeFrame_schedule (f : WireOp) (s : State) : (closeFrame f s).schedule = s.schedule := rfl
@[simp] theorem closeFrame_trace (f : WireOp) (s : State) : (closeFrame f s).trace = s.trace := rfl

/-! ### blockReset, blockPowerOn, devicePowerUp -/

@[simp] theorem blockReset_busy (s : State) : (blockReset s).busy = State.reset.busy := rfl
@[simp] theorem blockReset_done (s : State) : (blockReset s).done = State.reset.done := rfl
@[simp] theorem blockReset_result (s : State) : (blockReset s).result = State.reset.result := rfl
@[simp] theorem blockReset_misuse (s : State) : (blockReset s).misuse = State.reset.misuse := rfl
@[simp] theorem blockReset_addr (s : State) : (blockReset s).addr = State.reset.addr := rfl
@[simp] theorem blockReset_len (s : State) : (blockReset s).len = State.reset.len := rfl
@[simp] theorem blockReset_cfg (s : State) : (blockReset s).cfg = State.reset.cfg := rfl
@[simp] theorem blockReset_wrsrData (s : State) : (blockReset s).wrsrData = State.reset.wrsrData := rfl
@[simp] theorem blockReset_lastSr (s : State) : (blockReset s).lastSr = State.reset.lastSr := rfl
@[simp] theorem blockReset_pollCount (s : State) : (blockReset s).pollCount = State.reset.pollCount := rfl
@[simp] theorem blockReset_wrbuf (s : State) : (blockReset s).wrbuf = s.wrbuf := rfl
@[simp] theorem blockReset_rdbuf (s : State) : (blockReset s).rdbuf = s.rdbuf := rfl
@[simp] theorem blockReset_wel (s : State) : (blockReset s).wel = State.reset.wel := rfl
@[simp] theorem blockReset_wakeNeeded (s : State) : (blockReset s).wakeNeeded = State.reset.wakeNeeded := rfl
@[simp] theorem blockReset_op (s : State) : (blockReset s).op = State.reset.op := rfl
@[simp] theorem blockReset_phase (s : State) : (blockReset s).phase = State.reset.phase := rfl
@[simp] theorem blockReset_frame (s : State) : (blockReset s).frame = State.reset.frame := rfl
@[simp] theorem blockReset_pos (s : State) : (blockReset s).pos = State.reset.pos := rfl
@[simp] theorem blockReset_k (s : State) : (blockReset s).k = State.reset.k := rfl
@[simp] theorem blockReset_isOpen (s : State) : (blockReset s).isOpen = State.reset.isOpen := rfl
@[simp] theorem blockReset_csN (s : State) : (blockReset s).csN = State.reset.csN := rfl
@[simp] theorem blockReset_sclk (s : State) : (blockReset s).sclk = State.reset.sclk := rfl
@[simp] theorem blockReset_mosi (s : State) : (blockReset s).mosi = State.reset.mosi := rfl
@[simp] theorem blockReset_hrdata (s : State) : (blockReset s).hrdata = State.reset.hrdata := rfl
@[simp] theorem blockReset_device (s : State) : (blockReset s).device = (if s.isOpen then s.device.csUp else s.device) := rfl
@[simp] theorem blockReset_draws (s : State) : (blockReset s).draws = s.draws := rfl
@[simp] theorem blockReset_powerOns (s : State) : (blockReset s).powerOns = s.powerOns := rfl
@[simp] theorem blockReset_schedule (s : State) : (blockReset s).schedule = s.schedule := rfl
@[simp] theorem blockReset_trace (s : State) : (blockReset s).trace = (if s.isOpen then .csUp :: s.trace else s.trace) := rfl

@[simp] theorem blockPowerOn_busy (s : State) : (blockPowerOn s).busy = (blockReset s).busy := rfl
@[simp] theorem blockPowerOn_done (s : State) : (blockPowerOn s).done = (blockReset s).done := rfl
@[simp] theorem blockPowerOn_result (s : State) : (blockPowerOn s).result = (blockReset s).result := rfl
@[simp] theorem blockPowerOn_misuse (s : State) : (blockPowerOn s).misuse = (blockReset s).misuse := rfl
@[simp] theorem blockPowerOn_addr (s : State) : (blockPowerOn s).addr = (blockReset s).addr := rfl
@[simp] theorem blockPowerOn_len (s : State) : (blockPowerOn s).len = (blockReset s).len := rfl
@[simp] theorem blockPowerOn_cfg (s : State) : (blockPowerOn s).cfg = (blockReset s).cfg := rfl
@[simp] theorem blockPowerOn_wrsrData (s : State) : (blockPowerOn s).wrsrData = (blockReset s).wrsrData := rfl
@[simp] theorem blockPowerOn_lastSr (s : State) : (blockPowerOn s).lastSr = (blockReset s).lastSr := rfl
@[simp] theorem blockPowerOn_pollCount (s : State) : (blockPowerOn s).pollCount = (blockReset s).pollCount := rfl
@[simp] theorem blockPowerOn_wrbuf (s : State) : (blockPowerOn s).wrbuf = [] := rfl
@[simp] theorem blockPowerOn_rdbuf (s : State) : (blockPowerOn s).rdbuf = [] := rfl
@[simp] theorem blockPowerOn_wel (s : State) : (blockPowerOn s).wel = (blockReset s).wel := rfl
@[simp] theorem blockPowerOn_wakeNeeded (s : State) : (blockPowerOn s).wakeNeeded = (blockReset s).wakeNeeded := rfl
@[simp] theorem blockPowerOn_op (s : State) : (blockPowerOn s).op = (blockReset s).op := rfl
@[simp] theorem blockPowerOn_phase (s : State) : (blockPowerOn s).phase = (blockReset s).phase := rfl
@[simp] theorem blockPowerOn_frame (s : State) : (blockPowerOn s).frame = (blockReset s).frame := rfl
@[simp] theorem blockPowerOn_pos (s : State) : (blockPowerOn s).pos = (blockReset s).pos := rfl
@[simp] theorem blockPowerOn_k (s : State) : (blockPowerOn s).k = (blockReset s).k := rfl
@[simp] theorem blockPowerOn_isOpen (s : State) : (blockPowerOn s).isOpen = (blockReset s).isOpen := rfl
@[simp] theorem blockPowerOn_csN (s : State) : (blockPowerOn s).csN = (blockReset s).csN := rfl
@[simp] theorem blockPowerOn_sclk (s : State) : (blockPowerOn s).sclk = (blockReset s).sclk := rfl
@[simp] theorem blockPowerOn_mosi (s : State) : (blockPowerOn s).mosi = (blockReset s).mosi := rfl
@[simp] theorem blockPowerOn_hrdata (s : State) : (blockPowerOn s).hrdata = (blockReset s).hrdata := rfl
@[simp] theorem blockPowerOn_device (s : State) : (blockPowerOn s).device = (blockReset s).device := rfl
@[simp] theorem blockPowerOn_draws (s : State) : (blockPowerOn s).draws = (blockReset s).draws := rfl
@[simp] theorem blockPowerOn_powerOns (s : State) : (blockPowerOn s).powerOns = s.powerOns + 1 := rfl
@[simp] theorem blockPowerOn_schedule (s : State) : (blockPowerOn s).schedule = (blockReset s).schedule := rfl
@[simp] theorem blockPowerOn_trace (s : State) : (blockPowerOn s).trace = (blockReset s).trace := rfl

@[simp] theorem devicePowerUp_busy (s : State) : (devicePowerUp s).busy = s.busy := by
  unfold devicePowerUp
  split <;> rfl
@[simp] theorem devicePowerUp_done (s : State) : (devicePowerUp s).done = s.done := by
  unfold devicePowerUp
  split <;> rfl
@[simp] theorem devicePowerUp_result (s : State) : (devicePowerUp s).result = s.result := by
  unfold devicePowerUp
  split <;> rfl
@[simp] theorem devicePowerUp_misuse (s : State) : (devicePowerUp s).misuse = s.misuse := by
  unfold devicePowerUp
  split <;> rfl
@[simp] theorem devicePowerUp_addr (s : State) : (devicePowerUp s).addr = s.addr := by
  unfold devicePowerUp
  split <;> rfl
@[simp] theorem devicePowerUp_len (s : State) : (devicePowerUp s).len = s.len := by
  unfold devicePowerUp
  split <;> rfl
@[simp] theorem devicePowerUp_cfg (s : State) : (devicePowerUp s).cfg = s.cfg := by
  unfold devicePowerUp
  split <;> rfl
@[simp] theorem devicePowerUp_wrsrData (s : State) : (devicePowerUp s).wrsrData = s.wrsrData := by
  unfold devicePowerUp
  split <;> rfl
@[simp] theorem devicePowerUp_lastSr (s : State) : (devicePowerUp s).lastSr = s.lastSr := by
  unfold devicePowerUp
  split <;> rfl
@[simp] theorem devicePowerUp_pollCount (s : State) : (devicePowerUp s).pollCount = s.pollCount := by
  unfold devicePowerUp
  split <;> rfl
@[simp] theorem devicePowerUp_wrbuf (s : State) : (devicePowerUp s).wrbuf = s.wrbuf := by
  unfold devicePowerUp
  split <;> rfl
@[simp] theorem devicePowerUp_rdbuf (s : State) : (devicePowerUp s).rdbuf = s.rdbuf := by
  unfold devicePowerUp
  split <;> rfl
@[simp] theorem devicePowerUp_wel (s : State) : (devicePowerUp s).wel = s.wel := by
  unfold devicePowerUp
  split <;> rfl
@[simp] theorem devicePowerUp_wakeNeeded (s : State) : (devicePowerUp s).wakeNeeded = s.wakeNeeded := by
  unfold devicePowerUp
  split <;> rfl
@[simp] theorem devicePowerUp_op (s : State) : (devicePowerUp s).op = s.op := by
  unfold devicePowerUp
  split <;> rfl
@[simp] theorem devicePowerUp_phase (s : State) : (devicePowerUp s).phase = s.phase := by
  unfold devicePowerUp
  split <;> rfl
@[simp] theorem devicePowerUp_frame (s : State) : (devicePowerUp s).frame = s.frame := by
  unfold devicePowerUp
  split <;> rfl
@[simp] theorem devicePowerUp_pos (s : State) : (devicePowerUp s).pos = s.pos := by
  unfold devicePowerUp
  split <;> rfl
@[simp] theorem devicePowerUp_k (s : State) : (devicePowerUp s).k = s.k := by
  unfold devicePowerUp
  split <;> rfl
@[simp] theorem devicePowerUp_isOpen (s : State) : (devicePowerUp s).isOpen = s.isOpen := by
  unfold devicePowerUp
  split <;> rfl
@[simp] theorem devicePowerUp_csN (s : State) : (devicePowerUp s).csN = s.csN := by
  unfold devicePowerUp
  split <;> rfl
@[simp] theorem devicePowerUp_sclk (s : State) : (devicePowerUp s).sclk = s.sclk := by
  unfold devicePowerUp
  split <;> rfl
@[simp] theorem devicePowerUp_mosi (s : State) : (devicePowerUp s).mosi = s.mosi := by
  unfold devicePowerUp
  split <;> rfl
@[simp] theorem devicePowerUp_hrdata (s : State) : (devicePowerUp s).hrdata = s.hrdata := by
  unfold devicePowerUp
  split <;> rfl
@[simp] theorem devicePowerUp_powerOns (s : State) : (devicePowerUp s).powerOns = s.powerOns := by
  unfold devicePowerUp
  split <;> rfl
@[simp] theorem devicePowerUp_schedule (s : State) : (devicePowerUp s).schedule = s.schedule := by
  unfold devicePowerUp
  split <;> rfl
@[simp] theorem devicePowerUp_trace (s : State) : (devicePowerUp s).trace = s.trace := by
  unfold devicePowerUp
  split <;> rfl

/-- A power cycle of the oracle changes nothing: its answers are free anyway. -/
theorem devicePowerUp_oracle {s : State} {l : List Byte} (h : s.device = .oracle l) : devicePowerUp s = s := by
  simp [devicePowerUp, h]

/-- A power cycle of the reference device. -/
theorem devicePowerUp_reference {s : State} {r : RefDevice} (h : s.device = .reference r) :
    devicePowerUp s =
      { s with device := .reference (r.powerCycle (Config.powerUpStatus s.draws) s.isOpen), draws := s.draws + 1 } := by
  simp [devicePowerUp, h]

/-! ### keepByte -/

@[simp] theorem keepByte_busy (f : WireOp) (j : Nat) (i : Byte) (s : State) : (keepByte f j i s).busy = s.busy := by
  cases f <;> unfold keepByte <;> repeat' split
  all_goals rfl
@[simp] theorem keepByte_done (f : WireOp) (j : Nat) (i : Byte) (s : State) : (keepByte f j i s).done = s.done := by
  cases f <;> unfold keepByte <;> repeat' split
  all_goals rfl
@[simp] theorem keepByte_result (f : WireOp) (j : Nat) (i : Byte) (s : State) : (keepByte f j i s).result = s.result := by
  cases f <;> unfold keepByte <;> repeat' split
  all_goals rfl
@[simp] theorem keepByte_misuse (f : WireOp) (j : Nat) (i : Byte) (s : State) : (keepByte f j i s).misuse = s.misuse := by
  cases f <;> unfold keepByte <;> repeat' split
  all_goals rfl
@[simp] theorem keepByte_addr (f : WireOp) (j : Nat) (i : Byte) (s : State) : (keepByte f j i s).addr = s.addr := by
  cases f <;> unfold keepByte <;> repeat' split
  all_goals rfl
@[simp] theorem keepByte_len (f : WireOp) (j : Nat) (i : Byte) (s : State) : (keepByte f j i s).len = s.len := by
  cases f <;> unfold keepByte <;> repeat' split
  all_goals rfl
@[simp] theorem keepByte_cfg (f : WireOp) (j : Nat) (i : Byte) (s : State) : (keepByte f j i s).cfg = s.cfg := by
  cases f <;> unfold keepByte <;> repeat' split
  all_goals rfl
@[simp] theorem keepByte_wrsrData (f : WireOp) (j : Nat) (i : Byte) (s : State) : (keepByte f j i s).wrsrData = s.wrsrData := by
  cases f <;> unfold keepByte <;> repeat' split
  all_goals rfl
@[simp] theorem keepByte_wrbuf (f : WireOp) (j : Nat) (i : Byte) (s : State) : (keepByte f j i s).wrbuf = s.wrbuf := by
  cases f <;> unfold keepByte <;> repeat' split
  all_goals rfl
@[simp] theorem keepByte_wel (f : WireOp) (j : Nat) (i : Byte) (s : State) : (keepByte f j i s).wel = s.wel := by
  cases f <;> unfold keepByte <;> repeat' split
  all_goals rfl
@[simp] theorem keepByte_wakeNeeded (f : WireOp) (j : Nat) (i : Byte) (s : State) : (keepByte f j i s).wakeNeeded = s.wakeNeeded := by
  cases f <;> unfold keepByte <;> repeat' split
  all_goals rfl
@[simp] theorem keepByte_op (f : WireOp) (j : Nat) (i : Byte) (s : State) : (keepByte f j i s).op = s.op := by
  cases f <;> unfold keepByte <;> repeat' split
  all_goals rfl
@[simp] theorem keepByte_phase (f : WireOp) (j : Nat) (i : Byte) (s : State) : (keepByte f j i s).phase = s.phase := by
  cases f <;> unfold keepByte <;> repeat' split
  all_goals rfl
@[simp] theorem keepByte_frame (f : WireOp) (j : Nat) (i : Byte) (s : State) : (keepByte f j i s).frame = s.frame := by
  cases f <;> unfold keepByte <;> repeat' split
  all_goals rfl
@[simp] theorem keepByte_pos (f : WireOp) (j : Nat) (i : Byte) (s : State) : (keepByte f j i s).pos = s.pos := by
  cases f <;> unfold keepByte <;> repeat' split
  all_goals rfl
@[simp] theorem keepByte_isOpen (f : WireOp) (j : Nat) (i : Byte) (s : State) : (keepByte f j i s).isOpen = s.isOpen := by
  cases f <;> unfold keepByte <;> repeat' split
  all_goals rfl
@[simp] theorem keepByte_csN (f : WireOp) (j : Nat) (i : Byte) (s : State) : (keepByte f j i s).csN = s.csN := by
  cases f <;> unfold keepByte <;> repeat' split
  all_goals rfl
@[simp] theorem keepByte_sclk (f : WireOp) (j : Nat) (i : Byte) (s : State) : (keepByte f j i s).sclk = s.sclk := by
  cases f <;> unfold keepByte <;> repeat' split
  all_goals rfl
@[simp] theorem keepByte_mosi (f : WireOp) (j : Nat) (i : Byte) (s : State) : (keepByte f j i s).mosi = s.mosi := by
  cases f <;> unfold keepByte <;> repeat' split
  all_goals rfl
@[simp] theorem keepByte_hrdata (f : WireOp) (j : Nat) (i : Byte) (s : State) : (keepByte f j i s).hrdata = s.hrdata := by
  cases f <;> unfold keepByte <;> repeat' split
  all_goals rfl
@[simp] theorem keepByte_device (f : WireOp) (j : Nat) (i : Byte) (s : State) : (keepByte f j i s).device = s.device := by
  cases f <;> unfold keepByte <;> repeat' split
  all_goals rfl
@[simp] theorem keepByte_draws (f : WireOp) (j : Nat) (i : Byte) (s : State) : (keepByte f j i s).draws = s.draws := by
  cases f <;> unfold keepByte <;> repeat' split
  all_goals rfl
@[simp] theorem keepByte_powerOns (f : WireOp) (j : Nat) (i : Byte) (s : State) : (keepByte f j i s).powerOns = s.powerOns := by
  cases f <;> unfold keepByte <;> repeat' split
  all_goals rfl
@[simp] theorem keepByte_schedule (f : WireOp) (j : Nat) (i : Byte) (s : State) : (keepByte f j i s).schedule = s.schedule := by
  cases f <;> unfold keepByte <;> repeat' split
  all_goals rfl
@[simp] theorem keepByte_trace (f : WireOp) (j : Nat) (i : Byte) (s : State) : (keepByte f j i s).trace = s.trace := by
  cases f <;> unfold keepByte <;> repeat' split
  all_goals rfl

theorem keepByte_lastSr (f : WireOp) (j : Nat) (i : Byte) (s : State) :
    (keepByte f j i s).lastSr = if f = .rdsr then i else s.lastSr := by
  cases f <;> simp [keepByte]
  split <;> rfl

theorem keepByte_k (f : WireOp) (j : Nat) (i : Byte) (s : State) :
    (keepByte f j i s).k = if f = .rdsr ∧ s.phase = .polling then s.k + 1 else s.k := by
  cases f <;> simp [keepByte]
  split <;> simp_all

theorem keepByte_pollCount (f : WireOp) (j : Nat) (i : Byte) (s : State) :
    (keepByte f j i s).pollCount = if f = .rdsr ∧ s.phase = .polling then s.k + 1 else s.pollCount := by
  cases f <;> simp [keepByte]
  split <;> simp_all

theorem keepByte_rdbuf (f : WireOp) (j : Nat) (i : Byte) (s : State) :
    (keepByte f j i s).rdbuf = if f = .read ∨ f = .rdid then Buffer.put s.rdbuf j i else s.rdbuf := by
  cases f <;> simp [keepByte]
  split <;> rfl

end Sys2Proof.Machine
end

