-- ==== Sys2Proof/Laws/Frames.lean ====
section
/-! SUPPORT. What one event of a frame can do (one equation per kind of event), what the end of a frame can do, and what
each instruction does at each position. Later proofs cite these instead of unfolding the meanings. -/

namespace Sys2Proof.Machine

/-! ### The frame layout reads LEN and CFG only -/

theorem outLen_congr {s t : State} (f : WireOp) (h : t.len = s.len) : outLen f t = outLen f s := by
  cases f <;> simp [outLen, h]

theorem readLen_congr {s t : State} (f : WireOp) (h : t.len = s.len) (h' : t.cfg = s.cfg) : readLen f t = readLen f s := by
  cases f <;> simp [readLen, h, h']

theorem frameEvents_congr {s t : State} (f : WireOp) (h : t.len = s.len) (h' : t.cfg = s.cfg) :
    frameEvents f t = frameEvents f s := by
  simp [frameEvents, outLen_congr f h, readLen_congr f h h']

theorem outLen_pos (f : WireOp) (s : State) : 1 ≤ outLen f s := by
  cases f <;> simp [outLen]; omega

/-! ### Events -/

@[simp] theorem frameEvent_zero (f : WireOp) (s : State) : frameEvent f s 0 = .csAssert := rfl

theorem frameEvent_send (f : WireOp) (s : State) {p : Nat} (h1 : 1 ≤ p) (h2 : p ≤ outLen f s) :
    frameEvent f s p = .send (outByte f s (p - 1)) := by
  rw [frameEvent, if_neg (by omega), if_pos h2]

theorem frameEvent_recv (f : WireOp) (s : State) {p : Nat} (h1 : outLen f s < p) (h2 : p ≤ outLen f s + readLen f s) :
    frameEvent f s p = .recv (p - 1 - outLen f s) := by
  rw [frameEvent, if_neg (by omega), if_neg (by omega), if_pos h2]

theorem frameEvent_end (f : WireOp) (s : State) {p : Nat} (h : outLen f s + readLen f s < p) :
    frameEvent f s p = .csDeassert := by
  rw [frameEvent, if_neg (by omega), if_neg (by omega), if_neg (by omega)]

/-- The first event of a frame (R65). -/
theorem frameStep_csAssert (f : WireOp) (s : State) (h : s.pos = 0) : frameStep f s = { csAssert s with pos := 1 } := by
  simp [frameStep, h]

/-- An event that sends a byte and discards the answer (R66, R71). -/
theorem frameStep_send (f : WireOp) (s : State) (h1 : 1 ≤ s.pos) (h2 : s.pos ≤ outLen f s) :
    frameStep f s = { xferSend (outByte f s (s.pos - 1)) s with pos := s.pos + 1 } := by
  simp [frameStep, frameEvent_send f s h1 h2]

/-- An event of the read phase (R71). -/
theorem frameStep_recv (f : WireOp) (s : State) (h1 : outLen f s < s.pos) (h2 : s.pos ≤ outLen f s + readLen f s) :
    frameStep f s =
      { keepByte f (s.pos - 1 - outLen f s) s.misoByte (xferRecv s) with pos := s.pos + 1 } := by
  simp [frameStep, frameEvent_recv f s h1 h2]

/-- The last event of a frame (R69, R82). -/
theorem frameStep_end (f : WireOp) (s : State) (h : outLen f s + readLen f s < s.pos) :
    frameStep f s = frameEnd f (closeFrame f (csDeassert s)) := by
  simp [frameStep, frameEvent_end f s h]

/-- The four kinds of event, each with its place in the frame. -/
theorem frameStep_cases (f : WireOp) (s : State) :
    (s.pos = 0 ∧ frameStep f s = { csAssert s with pos := 1 }) ∨
    (1 ≤ s.pos ∧ s.pos ≤ outLen f s ∧
      frameStep f s = { xferSend (outByte f s (s.pos - 1)) s with pos := s.pos + 1 }) ∨
    (outLen f s < s.pos ∧ s.pos ≤ outLen f s + readLen f s ∧
      frameStep f s = { keepByte f (s.pos - 1 - outLen f s) s.misoByte (xferRecv s) with pos := s.pos + 1 }) ∨
    (outLen f s + readLen f s < s.pos ∧ frameStep f s = frameEnd f (closeFrame f (csDeassert s))) := by
  rcases Nat.eq_zero_or_pos s.pos with h0 | h0
  · exact .inl ⟨h0, frameStep_csAssert f s h0⟩
  rcases Nat.lt_or_ge (outLen f s) s.pos with h1 | h1
  · rcases Nat.lt_or_ge (outLen f s + readLen f s) s.pos with h2 | h2
    · exact .inr (.inr (.inr ⟨h2, frameStep_end f s h2⟩))
    · exact .inr (.inr (.inl ⟨h1, h2, frameStep_recv f s h1 h2⟩))
  · exact .inr (.inl ⟨h0, h1, frameStep_send f s h0 h1⟩)

/-! ### The end of a frame -/

/-- A single-frame command completes with OK in the step of its `CsDeassert`. -/
theorem frameEnd_single (f : WireOp) (s : State) (h : s.op ≠ .writePage) : frameEnd f s = complete .ok s := by
  simp [frameEnd, h]

theorem frameEnd_page_wren (s : State) (h : s.op = .writePage) (hp : s.phase = .writeEnabling) :
    frameEnd .wren s = { s with frame := .rdsr } := by
  simp [frameEnd, h, writePageNext, hp]

/-- R94: the verify RDSR decides, on bit 1 alone. -/
theorem frameEnd_page_verify (s : State) (h : s.op = .writePage) (hp : s.phase = .writeEnabling) :
    frameEnd .rdsr s =
      if welBit s.lastSr then { s with phase := .writeEnableVerified } else complete .writeNotEnabled s := by
  simp [frameEnd, h, writePageNext, hp]

theorem frameEnd_page_write (f : WireOp) (s : State) (h : s.op = .writePage) (hp : s.phase = .writing) :
    frameEnd f s = if s.cfg.pollEn then beginBody .polling .rdsr s else { s with phase := .settling } := by
  simp [frameEnd, h, writePageNext, hp]

/-- R95: a poll ends the command, or times it out, or the poller goes on. -/
theorem frameEnd_page_poll (f : WireOp) (s : State) (h : s.op = .writePage) (hp : s.phase = .polling) :
    frameEnd f s =
      if welBit s.lastSr then if s.k.toNat = s.cfg.pollBound then complete .deviceTimeout s else s
      else complete .ok s := by
  simp [frameEnd, h, writePageNext, hp]

/-! ### Instructions -/

theorem runFrame_next (f : WireOp) (s : State) (hp : s.phase.framed = true) (hf : s.frame = f) :
    runFrame f s = .next (frameStep f s) := by
  simp [runFrame, hp, hf]

/-- A frame instruction runs exactly where its frame is in progress; elsewhere it stops. -/
theorem runFrame_eq_next {f : WireOp} {s t : State} :
    runFrame f s = .next t ↔ (s.phase.framed = true ∧ s.frame = f ∧ t = frameStep f s) := by
  unfold runFrame
  by_cases h : (s.phase.framed && decide (s.frame = f)) = true
  · simp only [h, if_true]
    simp only [Bool.and_eq_true, decide_eq_true_eq] at h
    constructor
    · intro e
      exact ⟨h.1, h.2, by injection e with e; exact e.symm⟩
    · rintro ⟨-, -, rfl⟩
      rfl
  · simp only [if_neg h]
    simp only [Bool.and_eq_true, decide_eq_true_eq] at h
    constructor
    · intro e
      cases e
    · rintro ⟨h1, h2, -⟩
      exact absurd ⟨h1, h2⟩ h

theorem runCommand_idle (op : Op) (st : State → State) (b : State → Out) (s : State) (h : s.phase = .idle) :
    runCommand op st b s = .next (commandWrite op s) := by
  simp [runCommand, h]

theorem runCommand_accepted (op : Op) (st : State → State) (b : State → Out) (s : State) (h : s.phase = .accepted) :
    runCommand op st b s = .next (validate op st s) := by
  simp [runCommand, h]

theorem runCommand_waking (op : Op) (st : State → State) (b : State → Out) (s : State) (h : s.phase = .waking) :
    runCommand op st b s = .next (wakeStep st s) := by
  simp [runCommand, h]

/-- In a framed phase, a single-frame command runs its frame. -/
theorem runCommand_single (op : Op) (p : Phase) (f : WireOp) (s : State) (h : s.phase = p) (hp : p.framed = true)
    (hf : s.frame = f) : runCommand op (beginBody p f) (singleFrame p f) s = .next (frameStep f s) := by
  subst h
  have hb : ∀ st, runCommand op st (singleFrame s.phase f) s = singleFrame s.phase f s := by
    intro st
    unfold runCommand
    revert hp
    generalize s.phase = q
    intro hp
    cases q <;> simp_all [Phase.framed]
  rw [hb, singleFrame, if_pos rfl, runFrame_next f s hp hf]

/-- Where `exec` runs a frame instruction it makes that frame's next event. -/
theorem exec_wire (f : WireOp) (s : State) : exec f.instr s = runFrame f s := by
  cases f <;> rfl

/-- A CMD write to an idle block: the instruction's first step is `CommandWrite` (R76). -/
theorem exec_idle {i : Instr} {o : Op} (hi : i.op? = some o) (s : State) (h : s.phase = .idle) :
    exec i s = .next (commandWrite o s) := by
  cases i <;> simp only [Instr.op?, Option.some.injEq, reduceCtorEq] at hi <;> subst hi
  case illegal w => simp [exec, execIllegal, h]
  all_goals first | exact runCommand_idle _ _ _ s h

/-- How `exec` enters the body of a command. -/
def startOf (o : Op) : State → State :=
  match o with
  | .illegal => id
  | _ => beginBody (bodyStart o).1 (bodyStart o).2

/-- The validation step of every command (R77). -/
theorem exec_accepted {i : Instr} {o : Op} (hi : i.op? = some o) (s : State) (h : s.phase = .accepted) :
    exec i s = .next (validate o (startOf o) s) := by
  cases i <;> simp only [Instr.op?, Option.some.injEq, reduceCtorEq] at hi <;> subst hi
  case illegal w => simp [exec, execIllegal, h, startOf]
  all_goals first | exact runCommand_accepted _ _ _ s h

/-- The wake pulse of every command that has a body (R89). -/
theorem exec_waking {i : Instr} {o : Op} (hi : i.op? = some o) (ho : o ≠ .illegal) (s : State) (h : s.phase = .waking) :
    exec i s = .next (wakeStep (startOf o) s) := by
  cases i <;> simp only [Instr.op?, Option.some.injEq, reduceCtorEq] at hi <;> subst hi
  case illegal w => exact absurd rfl ho
  all_goals first | exact runCommand_waking _ _ _ s h

/-- WRITE_PAGE past validation and waking. -/
theorem exec_writePage_body (s : State) (h0 : s.phase ≠ .idle) (h1 : s.phase ≠ .accepted) (h2 : s.phase ≠ .waking) :
    exec .writePage s = writePageBody s := by
  simp only [exec, execWritePage, runCommand]
  generalize hp : s.phase = p at *
  cases p <;> simp_all [writePageBody]

theorem singleFrame_eq_next {p : Phase} {f : WireOp} {s t : State} (h : singleFrame p f s = .next t) :
    s.phase = p ∧ s.phase.framed = true ∧ s.frame = f ∧ t = frameStep f s := by
  unfold singleFrame at h
  split at h
  · rename_i hp
    exact ⟨hp, runFrame_eq_next.1 h⟩
  · cases h

theorem writePageBody_eq_next {s t : State} (h : writePageBody s = .next t) :
    (s.phase.framed = true ∧ t = frameStep s.frame s) ∨
    (s.phase = .writeEnableVerified ∧ t = frameStep .write (beginBody .writing .write s)) ∨
    (s.phase = .settling ∧ t = complete .ok (busWait .settle s)) := by
  unfold writePageBody at h
  split at h
  case h_1 =>
    split at h <;> obtain ⟨h1, h2, h3⟩ := runFrame_eq_next.1 h <;> exact .inl ⟨h1, h2 ▸ h3⟩
  case h_2 hp => exact .inr (.inl ⟨hp, by injection h with h; exact h.symm⟩)
  case h_3 => obtain ⟨h1, h2, h3⟩ := runFrame_eq_next.1 h; exact .inl ⟨h1, h2 ▸ h3⟩
  case h_4 => obtain ⟨h1, h2, h3⟩ := runFrame_eq_next.1 h; exact .inl ⟨h1, h2 ▸ h3⟩
  case h_5 hp => exact .inr (.inr ⟨hp, by injection h with h; exact h.symm⟩)
  all_goals cases h

/-- Where a command past validation and waking answers a next state, its body does. -/
theorem runCommand_eq_next {o : Op} {st : State → State} {b : State → Out} {s t : State}
    (h : runCommand o st b s = .next t) :
    (s.phase = .idle ∧ t = commandWrite o s) ∨ (s.phase = .accepted ∧ t = validate o st s) ∨
    (s.phase = .waking ∧ t = wakeStep st s) ∨ b s = .next t := by
  unfold runCommand at h
  split at h
  case h_1 hp => exact .inl ⟨hp, by injection h with h; exact h.symm⟩
  case h_2 hp => exact .inr (.inl ⟨hp, by injection h with h; exact h.symm⟩)
  case h_3 hp => exact .inr (.inr (.inl ⟨hp, by injection h with h; exact h.symm⟩))
  all_goals exact .inr (.inr (.inr h))

/-- Everything an instruction can do when it answers a next state: the CMD write, validation, the wake pulse, an event
of the frame in progress, or one of WRITE_PAGE's two steps between frames. -/
theorem exec_cases {i : Instr} {s t : State} (h : exec i s = .next t) :
    (∃ o, i.op? = some o ∧ s.phase = .idle ∧ t = commandWrite o s) ∨
    (∃ o, i.op? = some o ∧ s.phase = .accepted ∧ t = validate o (startOf o) s) ∨
    (∃ o, i.op? = some o ∧ o ≠ .illegal ∧ s.phase = .waking ∧ t = wakeStep (startOf o) s) ∨
    (s.phase.framed = true ∧ t = frameStep s.frame s) ∨
    (i = .writePage ∧ s.phase = .writeEnableVerified ∧ t = frameStep .write (beginBody .writing .write s)) ∨
    (i = .writePage ∧ s.phase = .settling ∧ t = complete .ok (busWait .settle s)) := by
  have wire : ∀ f, runFrame f s = .next t → s.phase.framed = true ∧ t = frameStep s.frame s := by
    intro f hf
    obtain ⟨h1, h2, h3⟩ := runFrame_eq_next.1 hf
    exact ⟨h1, h2 ▸ h3⟩
  cases i
  case illegal w =>
    have h : execIllegal w s = .next t := h
    unfold execIllegal at h
    split at h
    case h_1 hp => exact .inl ⟨_, rfl, hp, by injection h with h; exact h.symm⟩
    case h_2 hp => exact .inr (.inl ⟨_, rfl, hp, by injection h with h; exact h.symm⟩)
    all_goals cases h
  case writePage =>
    rcases runCommand_eq_next h with h | h | h | h
    · exact .inl ⟨_, rfl, h⟩
    · exact .inr (.inl ⟨_, rfl, h⟩)
    · exact .inr (.inr (.inl ⟨_, rfl, by simp, h⟩))
    · rcases writePageBody_eq_next h with h | h | h
      · exact .inr (.inr (.inr (.inl h)))
      · exact .inr (.inr (.inr (.inr (.inl ⟨rfl, h⟩))))
      · exact .inr (.inr (.inr (.inr (.inr ⟨rfl, h⟩))))
  case wireWren | wireWrdi | wireRdsr | wireWrsr | wireRead | wireWrite | wireRdid | wireSleep =>
    exact .inr (.inr (.inr (.inl (wire _ h))))
  all_goals
    rcases runCommand_eq_next h with h | h | h | h
    · exact .inl ⟨_, rfl, h⟩
    · exact .inr (.inl ⟨_, rfl, h⟩)
    · exact .inr (.inr (.inl ⟨_, rfl, by simp, h⟩))
    · obtain ⟨-, h1, h2, h3⟩ := singleFrame_eq_next h
      exact .inr (.inr (.inr (.inl ⟨h1, h2 ▸ h3⟩)))

/-- A frame's end writes the latch, WAKE_NEEDED, STATUS, the phase and the position, and nothing else: the fields a
command never writes. -/
theorem frameEnd_kept (f : WireOp) (s : State) :
    (frameEnd f s).addr = s.addr ∧ (frameEnd f s).len = s.len ∧ (frameEnd f s).cfg = s.cfg ∧
    (frameEnd f s).wrsrData = s.wrsrData ∧ (frameEnd f s).wrbuf = s.wrbuf ∧ (frameEnd f s).rdbuf = s.rdbuf ∧
    (frameEnd f s).hrdata = s.hrdata ∧ (frameEnd f s).schedule = s.schedule ∧ (frameEnd f s).op = s.op ∧
    (frameEnd f s).misuse = s.misuse ∧ (frameEnd f s).lastSr = s.lastSr ∧ (frameEnd f s).pollCount = s.pollCount ∧
    (frameEnd f s).k = s.k ∧ (frameEnd f s).wel = s.wel ∧ (frameEnd f s).wakeNeeded = s.wakeNeeded ∧
    (frameEnd f s).device = s.device ∧ (frameEnd f s).draws = s.draws ∧ (frameEnd f s).trace = s.trace ∧
    (frameEnd f s).csN = s.csN ∧ (frameEnd f s).isOpen = s.isOpen ∧ (frameEnd f s).sclk = s.sclk ∧
    (frameEnd f s).mosi = s.mosi ∧ (frameEnd f s).powerOns = s.powerOns := by
  unfold frameEnd writePageNext
  repeat' split
  all_goals simp

/-- An event of a frame keeps the registers only the host writes. -/
theorem frameStep_sameOperands (f : WireOp) (s : State) :
    SameOperands s (frameStep f s) ∧ (frameStep f s).op = s.op ∧ (frameStep f s).misuse = s.misuse := by
  rcases frameStep_cases f s with ⟨-, e⟩ | ⟨-, -, e⟩ | ⟨-, -, e⟩ | ⟨-, e⟩ <;> rw [e]
  · exact ⟨⟨rfl, rfl, rfl, rfl, rfl, rfl, rfl, rfl⟩, rfl, rfl⟩
  · exact ⟨⟨rfl, rfl, rfl, rfl, rfl, rfl, rfl, rfl⟩, rfl, rfl⟩
  · refine ⟨⟨?_, ?_, ?_, ?_, ?_, ?_, ?_, ?_⟩, ?_, ?_⟩ <;> simp
  · obtain ⟨h1, h2, h3, h4, h5, -, h7, h8, h9, h10, -, -, -, -, -, -, -, -, -, -, -, -, h23⟩ :=
      frameEnd_kept f (closeFrame f (csDeassert s))
    exact ⟨⟨h1, h2, h3, h4, h5, h23, h7, h8⟩, h9, h10⟩

end Sys2Proof.Machine
end

