-- ==== Sys2Proof/Laws/Memory.lean ====
section
/-! SUPPORT. Laws of the byte memories: a read after a write, and that every operation keeps the canonical form. -/

namespace Sys2Proof.Machine

@[simp] theorem Memory.read_nil (free : Nat → Byte) (a : Nat) : Memory.read free [] a = free a := rfl

@[simp] theorem Memory.read_cons (free : Nat → Byte) (x : Nat) (b : Byte) (m : Memory) (a : Nat) :
    Memory.read free ((x, b) :: m) a = if a = x then b else Memory.read free m a := rfl

/-- A read after a write: the byte written at its address, every other byte as before. No premise on the form is
needed. -/
theorem Memory.read_write (free : Nat → Byte) (m : Memory) (a : Nat) (v : Byte) (x : Nat) :
    Memory.read free (Memory.write m a v) x = if x = a then v else Memory.read free m x := by
  induction m with
  | nil => simp [Memory.write]
  | cons c m ih =>
    obtain ⟨y, b⟩ := c
    by_cases h1 : a < y
    · simp [Memory.write, h1]
    by_cases h2 : a = y
    · subst h2
      by_cases hx : x = a <;> simp [Memory.write, hx]
    · by_cases hx : x = y
      · subst hx
        have : x ≠ a := fun e => h2 e.symm
        simp [Memory.write, h1, h2, this]
      · simp [Memory.write, h1, h2, hx, ih]

theorem Memory.risingFrom_mono {lo hi : Nat} (h : lo ≤ hi) (m : Memory) (hm : Memory.risingFrom hi m = true) :
    Memory.risingFrom lo m = true := by
  cases m with
  | nil => rfl
  | cons c m =>
    obtain ⟨x, b⟩ := c
    simp only [Memory.risingFrom, Bool.and_eq_true, decide_eq_true_eq] at hm ⊢
    exact ⟨by omega, hm.2⟩

theorem Memory.risingFrom_write (m : Memory) (a : Nat) (v : Byte) (lo : Nat) (ha : lo ≤ a)
    (hm : Memory.risingFrom lo m = true) : Memory.risingFrom lo (Memory.write m a v) = true := by
  induction m generalizing lo with
  | nil => simp [Memory.write, Memory.risingFrom, ha]
  | cons c m ih =>
    obtain ⟨x, b⟩ := c
    simp only [Memory.risingFrom, Bool.and_eq_true, decide_eq_true_eq] at hm
    unfold Memory.write
    split_ifs with h1 h2
    · simp only [Memory.risingFrom, Bool.and_eq_true, decide_eq_true_eq]
      exact ⟨ha, by omega, hm.2⟩
    · subst h2
      simp [Memory.risingFrom, ha, hm.2]
    · simp only [Memory.risingFrom, Bool.and_eq_true, decide_eq_true_eq]
      exact ⟨hm.1, ih (x + 1) (by omega) hm.2⟩

theorem Memory.all_write (p : Nat → Bool) (m : Memory) (a : Nat) (v : Byte) (ha : p a = true)
    (hm : (m.all fun c => p c.1) = true) : ((Memory.write m a v).all fun c => p c.1) = true := by
  induction m with
  | nil => simp [Memory.write, ha]
  | cons c m ih =>
    obtain ⟨x, b⟩ := c
    simp only [List.all_cons, Bool.and_eq_true] at hm
    unfold Memory.write
    split_ifs <;> simp only [List.all_cons, Bool.and_eq_true] <;> first | exact ⟨ha, hm⟩ | exact ⟨ha, hm.2⟩ |
      exact ⟨hm.1, ih hm.2⟩

/-- A write inside the memory keeps the canonical form. -/
theorem Memory.wf_write {size : Nat} {m : Memory} (hm : Memory.wf size m = true) {a : Nat} (ha : a < size) (v : Byte) :
    Memory.wf size (Memory.write m a v) = true := by
  simp only [Memory.wf, Bool.and_eq_true] at hm ⊢
  exact ⟨Memory.risingFrom_write m a v 0 (Nat.zero_le _) hm.1,
    Memory.all_write (fun x => decide (x < size)) m a v (by simpa using ha) hm.2⟩

@[simp] theorem Memory.wf_nil (size : Nat) : Memory.wf size [] = true := rfl

theorem Memory.read_of_below (free : Nat → Byte) (m : Memory) (lo : Nat) (hm : Memory.risingFrom lo m = true) (x : Nat)
    (hx : x < lo) : Memory.read free m x = free x := by
  induction m generalizing lo with
  | nil => rfl
  | cons c m ih =>
    obtain ⟨y, b⟩ := c
    simp only [Memory.risingFrom, Bool.and_eq_true, decide_eq_true_eq] at hm
    rw [Memory.read_cons, if_neg (by omega)]
    exact ih (y + 1) hm.2 (by omega)

/-- Equal memories are equal data: two canonical memories that read alike, whatever unwritten bytes hold, are one list. -/
theorem Memory.eq_of_read_eq (m n : Memory) (lo : Nat) (hm : Memory.risingFrom lo m = true)
    (hn : Memory.risingFrom lo n = true) (h : ∀ free : Nat → Byte, ∀ x, Memory.read free m x = Memory.read free n x) :
    m = n := by
  induction m generalizing lo n with
  | nil =>
    cases n with
    | nil => rfl
    | cons c n =>
      obtain ⟨y, b⟩ := c
      have := h (fun _ => b + 1) y
      simp at this
  | cons c m ih =>
    obtain ⟨x, b⟩ := c
    simp only [Memory.risingFrom, Bool.and_eq_true, decide_eq_true_eq] at hm
    cases n with
    | nil =>
      have := h (fun _ => b + 1) x
      simp at this
    | cons d n =>
      obtain ⟨y, e⟩ := d
      simp only [Memory.risingFrom, Bool.and_eq_true, decide_eq_true_eq] at hn
      have hxy : x = y := by
        rcases Nat.lt_trichotomy x y with hlt | heq | hgt
        · have := h (fun _ => b + 1) x
          rw [Memory.read_cons, if_pos rfl, Memory.read_cons, if_neg (by omega),
            Memory.read_of_below _ n (y + 1) hn.2 x (by omega)] at this
          simp at this
        · exact heq
        · have := h (fun _ => e + 1) y
          rw [Memory.read_cons, if_neg (by omega), Memory.read_of_below _ m (x + 1) hm.2 y (by omega),
            Memory.read_cons, if_pos rfl] at this
          simp at this
      subst hxy
      have hbe : b = e := by simpa using h (fun _ => 0) x
      subst hbe
      congr 1
      refine ih n (x + 1) hm.2 hn.2 fun free z => ?_
      by_cases hz : z = x
      · subst hz
        rw [Memory.read_of_below _ m (z + 1) hm.2 z (by omega), Memory.read_of_below _ n (z + 1) hn.2 z (by omega)]
      · simpa [hz] using h free z

/-! ### Buffers -/

theorem Buffer.wf_put {b : Buffer} (hb : Memory.wf Config.bufferSize b = true) (j : Nat) (v : Byte) :
    Memory.wf Config.bufferSize (Buffer.put b j v) = true := by
  unfold Buffer.put
  split_ifs with h
  · exact Memory.wf_write hb h v
  · exact hb

theorem Buffer.wf_putWord {b : Buffer} (hb : Memory.wf Config.bufferSize b = true) (k : Nat) (w : Word) :
    Memory.wf Config.bufferSize (Buffer.putWord b k w) = true :=
  Buffer.wf_put (Buffer.wf_put (Buffer.wf_put (Buffer.wf_put hb _ _) _ _) _ _) _ _

theorem Buffer.read_put (free : Nat → Byte) (b : Buffer) (j : Nat) (v : Byte) (x : Nat) :
    Memory.read free (Buffer.put b j v) x = if x = j ∧ j < Config.bufferSize then v else Memory.read free b x := by
  unfold Buffer.put
  split_ifs with h1 h2 h2
  · simp [Memory.read_write, h2.1]
  · have : x ≠ j := fun e => h2 ⟨e, h1⟩
    simp [Memory.read_write, this]
  · exact absurd h2.2 h1
  · rfl

/-- Byte `x` of a buffer after `SetBufWord` at word `k` (R38). -/
theorem Buffer.read_putWord (free : Nat → Byte) (b : Buffer) (k : Nat) (hk : k < 256) (w : Word) (x : Nat) :
    Memory.read free (Buffer.putWord b k w) x =
      if x = 4 * k then w.extractLsb' 0 8
      else if x = 4 * k + 1 then w.extractLsb' 8 8
      else if x = 4 * k + 2 then w.extractLsb' 16 8
      else if x = 4 * k + 3 then w.extractLsb' 24 8
      else Memory.read free b x := by
  have hs : Config.bufferSize = 1024 := rfl
  simp only [Buffer.putWord, Buffer.read_put, hs]
  split_ifs <;> first | rfl | omega

/-! ### The reference device's array -/

theorem storeBytes_wf (m : Memory) (x : Nat) (l : List Byte) (hm : Memory.wf Config.framSize m = true) :
    Memory.wf Config.framSize (storeBytes m x l) = true := by
  induction l generalizing m x with
  | nil => exact hm
  | cons b l ih =>
    exact ih _ _ (Memory.wf_write hm (Nat.mod_lt _ (by decide)) b)

/-- A run of bytes leaves every address it does not store to alone, wherever it wraps. -/
theorem storeBytes_read_outside (free : Nat → Byte) (m : Memory) (x : Nat) (l : List Byte) (y : Nat)
    (h : ∀ j, j < l.length → y ≠ (x + j) % Config.framSize) :
    Memory.read free (storeBytes m x l) y = Memory.read free m y := by
  induction l generalizing m x with
  | nil => rfl
  | cons b l ih =>
    have h0 : y ≠ x % Config.framSize := h 0 (Nat.succ_pos _)
    rw [storeBytes, ih _ _ fun j hj => by have := h (j + 1) (Nat.succ_lt_succ hj); rwa [Nat.add_right_comm, Nat.add_assoc],
      Memory.read_write, if_neg h0]

/-- A run of bytes no longer than the array lands, byte for byte, on its addresses modulo the array size. -/
theorem storeBytes_read_inside (free : Nat → Byte) (m : Memory) (x : Nat) (l : List Byte) (hl : l.length ≤ Config.framSize)
    (j : Nat) (hj : j < l.length) :
    Memory.read free (storeBytes m x l) ((x + j) % Config.framSize) = l.getD j 0 := by
  induction l generalizing m x j with
  | nil => exact absurd hj (Nat.not_lt_zero _)
  | cons b l ih =>
    have hs : Config.framSize = 32768 := rfl
    simp only [List.length_cons] at hl hj
    cases j with
    | zero =>
      rw [storeBytes, storeBytes_read_outside _ _ _ _ _ fun i hi => by rw [hs]; omega, Memory.read_write, Nat.add_zero, if_pos rfl]
      rfl
    | succ j =>
      rw [storeBytes, show x + (j + 1) = x + 1 + j by omega, ih _ _ (by omega) j (by omega), List.getD_cons_succ]

/-- A run of bytes that ends inside the array lands on the addresses `x … x + l.length - 1` and nowhere else. -/
theorem storeBytes_read (free : Nat → Byte) (m : Memory) (x : Nat) (l : List Byte) (h : x + l.length ≤ Config.framSize)
    (y : Nat) :
    Memory.read free (storeBytes m x l) y =
      if x ≤ y ∧ y < x + l.length then l.getD (y - x) 0 else Memory.read free m y := by
  induction l generalizing m x with
  | nil =>
    rw [if_neg (by simp only [List.length_nil]; omega)]
    rfl
  | cons b l ih =>
    have hs : Config.framSize = 32768 := rfl
    simp only [List.length_cons] at h ⊢
    rw [storeBytes, ih _ _ (by omega), Nat.mod_eq_of_lt (by omega), Memory.read_write]
    by_cases h1 : x + 1 ≤ y ∧ y < x + 1 + l.length
    · have e : y - x = (y - (x + 1)) + 1 := by omega
      rw [if_pos h1, if_pos (by omega), e, List.getD_cons_succ]
    · rw [if_neg h1]
      by_cases h2 : y = x
      · subst h2
        rw [if_pos rfl, if_pos (by omega), Nat.sub_self, List.getD_cons_zero]
      · rw [if_neg h2, if_neg (by omega)]

end Sys2Proof.Machine
end

