-- ==== Sys2Proof/Laws/Invariant.lean ====
section
/-! SUPPORT. The invariant of Safety.lean, kept by each shared operation: the device's side of an event, each kind of
frame event, completion, the host's accesses, reset, validation and the wake pulse. -/

namespace Sys2Proof.Machine

/-- Setting WEL leaves bit 0 of the status register (R52). -/
theorem setWel_bit0 (sr : Byte) (v : Bool) : (setWel sr v).getLsbD 0 = sr.getLsbD 0 := by
  cases v <;> simp [setWel]

/-- A WRSR frame leaves bit 0 of the status register (R52). -/
theorem setProtection_bit0 (sr new : Byte) : (setProtection sr new).getLsbD 0 = sr.getLsbD 0 := by
  simp [setProtection]

/-- CS↑ keeps the array canonical. -/
theorem RefDevice.effect_wf (r : RefDevice) (h : Memory.wf Config.framSize r.arr = true) :
    Memory.wf Config.framSize r.effect.arr = true := by
  unfold RefDevice.effect
  repeat' split
  all_goals first | exact h | exact storeBytes_wf _ _ _ h

/-- No frame changes bit 0 of the status register. -/
theorem RefDevice.effect_bit0 (r : RefDevice) : r.effect.sr.getLsbD 0 = r.sr.getLsbD 0 := by
  unfold RefDevice.effect
  repeat' split
  all_goals first | rfl | simp only [setWel_bit0, setProtection_bit0]

theorem Device.csDown_wf (d : Device) (h : d.wf) : d.csDown.wf := by
  cases d <;> exact h

theorem Device.csUp_wf (d : Device) (h : d.wf) : d.csUp.wf := by
  cases d with
  | oracle l => trivial
  | reference r =>
    simp only [Device.csUp, Device.wf, RefDevice.csUp] at *
    split
    · exact h
    · exact ⟨RefDevice.effect_wf r h.1, (RefDevice.effect_bit0 r).trans h.2⟩

/-- A received byte changes no array byte: data is stored at CS↑. -/
theorem RefDevice.receive_arr (r : RefDevice) (o : Byte) : (r.receive o).arr = r.arr := by
  unfold RefDevice.receive
  repeat' split
  all_goals rfl

/-- A received byte leaves the status register: its effect comes at CS↑. -/
theorem RefDevice.receive_sr (r : RefDevice) (o : Byte) : (r.receive o).sr = r.sr := by
  unfold RefDevice.receive
  repeat' split
  all_goals rfl

theorem Device.receive_wf (o : Byte) (d : Device) (h : d.wf) : (d.receive o).wf := by
  cases d with
  | oracle l => cases l <;> trivial
  | reference r =>
    simp only [Device.receive, Device.wf] at *
    split
    · exact h
    · rw [RefDevice.receive_arr, RefDevice.receive_sr]
      exact h

/-- A device's power cycle keeps the array and leaves WEL and bit 0 of the status at 0, and the device awake (R50, R52). -/
theorem RefDevice.powerCycle_cases (status : Byte) (midway : Bool) (r : RefDevice) :
    (r.powerCycle status midway).arr = r.arr ∧ (r.powerCycle status midway).id = r.id ∧
    (r.powerCycle status midway).sr.getLsbD 0 = false ∧ (r.powerCycle status midway).sr.getLsbD 1 = false ∧
    (r.powerCycle status midway).asleep = false ∧ (r.powerCycle status midway).ignoring = midway := by
  refine ⟨rfl, rfl, ?_, ?_, rfl, rfl⟩ <;> simp [RefDevice.powerCycle, RefDevice.powerUp, setWel]

/-- The first event of a frame keeps the invariant. -/
theorem inv_frame_csAssert {s : State} (h : s.Inv) (hf : s.phase.framed = true) (h0 : s.pos = 0) :
    ({ csAssert s with pos := 1 } : State).Inv := by
  obtain ⟨a1, a2, a3, a4, a5, a6, a7, a8, a9, a10, a11, a12, a13, a14, a15, a16⟩ := h
  have hfe : frameEvents s.frame { csAssert s with pos := 1 } = frameEvents s.frame s := frameEvents_congr _ rfl rfl
  have hpos := outLen_pos s.frame s
  constructor
  case device_wf => exact Device.csDown_wf _ a14
  all_goals simp only [csAssert] at *
  all_goals try assumption
  all_goals generalize hp : s.phase = p at *
  all_goals cases p <;> simp_all [State.positionOK, State.pollsOK, State.wakeOK, State.welOK, State.rangeGuard,
    State.rangeOK, Phase.framed, phaseOwned]
  all_goals (simp only [frameEvents] at *; omega)

/-- A sent byte keeps the invariant. -/
theorem inv_frame_send {s : State} (h : s.Inv) (hf : s.phase.framed = true) (h0 : 1 ≤ s.pos) (h1 : s.pos ≤ outLen
    s.frame s) (o : Byte) :
    ({ xferSend o s with pos := s.pos + 1 } : State).Inv := by
  obtain ⟨a1, a2, a3, a4, a5, a6, a7, a8, a9, a10, a11, a12, a13, a14, a15, a16⟩ := h
  have hfe : frameEvents s.frame { xferSend o s with pos := s.pos + 1 } = frameEvents s.frame s := frameEvents_congr
    _ rfl rfl
  constructor
  case device_wf => exact Device.receive_wf _ _ a14
  all_goals simp only [xferSend] at *
  all_goals try assumption
  all_goals generalize hp : s.phase = p at *
  all_goals cases p <;> simp_all [State.positionOK, State.pollsOK, State.wakeOK, State.welOK, State.rangeGuard,
    State.rangeOK, Phase.framed, phaseOwned]
  all_goals try (simp only [frameEvents] at *; omega)
  all_goals (simp only [outLen] at *; split_ifs at * <;> omega)

theorem k_succ {k : BitVec 9} {b : Nat} (h : k.toNat + 1 ≤ b) (hb : b ≤ 256) : (k + 1).toNat = k.toNat + 1 := by
  rw [BitVec.toNat_add]; simp; omega

/-- A received byte keeps the invariant: LAST_SR, the poll counter and RDBUF may change. -/
theorem inv_frame_recv {s : State} (h : s.Inv) (hf : s.phase.framed = true) (h0 : outLen s.frame s < s.pos) (h1 :
    s.pos ≤ outLen s.frame s + readLen s.frame s) (j : Nat) :
    ({ keepByte s.frame j s.misoByte (xferRecv s) with pos := s.pos + 1 } : State).Inv := by
  obtain ⟨a1, a2, a3, a4, a5, a6, a7, a8, a9, a10, a11, a12, a13, a14, a15, a16⟩ := h
  have hfe : frameEvents s.frame { keepByte s.frame j s.misoByte (xferRecv s) with pos := s.pos + 1 } = frameEvents
    s.frame s := frameEvents_congr _ (by simp) (by simp)
  have hb : s.cfg.pollBound ≤ 256 := by have := s.cfg.pollMax.isLt; simp only [Cfg.pollBound]; omega
  have hpos := outLen_pos s.frame s
  constructor
  case device_wf => simpa using Device.receive_wf _ _ a14
  case rdbuf_wf =>
    simp only [keepByte_rdbuf]
    split
    · exact Buffer.wf_put a16 _ _
    · exact a16
  case polls =>
    by_cases hpp : s.phase = .polling
    · obtain ⟨hfr, hop⟩ : s.frame = .rdsr ∧ s.op = .writePage := by simpa [phaseOwned, hpp] using a8
      simp only [State.pollsOK, hpp] at a12
      rw [hfr] at h0 h1
      simp only [outLen, readLen] at h0 h1
      have hk : s.k.toNat + 1 ≤ s.cfg.pollBound := by
        have := a12.2.2
        rw [if_pos (by omega)] at this
        exact this
      have e := k_succ hk hb
      simp only [State.pollsOK, keepByte_pollCount, keepByte_k, keepByte_phase, xferRecv_phase, hpp, hfr, and_self,
        if_true, keepByte_cfg, xferRecv_cfg, xferRecv_k]
      rw [e, if_neg (by omega)]
      refine ⟨trivial, by omega, by omega⟩
    · simp only [State.pollsOK] at *
      simp only [keepByte_pollCount, keepByte_k, keepByte_phase, xferRecv_phase, hpp, and_false, if_false]
      generalize s.phase = p at *
      cases p <;> simp_all
  all_goals simp
  all_goals try assumption
  all_goals generalize hp : s.phase = p at *
  all_goals cases p <;> simp_all [State.positionOK, State.pollsOK, State.wakeOK, State.welOK, State.rangeGuard,
    State.rangeOK, Phase.framed, phaseOwned]
  all_goals try (simp only [frameEvents] at *; omega)

/-- Completion with chip-select high keeps the invariant (R80). -/
theorem inv_complete {s : State} (h : s.Inv) (ho : s.isOpen = false) (c : Result) : (complete c s).Inv := by
  obtain ⟨a1, a2, a3, a4, a5, a6, a7, a8, a9, a10, a11, a12, a13, a14, a15, a16⟩ := h
  constructor <;> simp_all [phaseOwned, State.positionOK, State.pollsOK, State.wakeOK, State.welOK, State.rangeGuard]

/-- Only a WREN frame leaves WL_CLEAR (R82). -/
theorem welAfter_clear (f : WireOp) (sr : Byte) (hf : f ≠ .wren) : welAfter f sr .clear = .clear := by
  cases f <;> simp_all [welAfter]

/-- The last event of a frame keeps the invariant, whatever its command does next. -/
theorem inv_frame_end {s : State} (h : s.Inv) (hf : s.phase.framed = true) :
    (frameEnd s.frame (closeFrame s.frame (csDeassert s))).Inv := by
  obtain ⟨a1, a2, a3, a4, a5, a6, a7, a8, a9, a10, a11, a12, a13, a14, a15, a16⟩ := h
  have hd := Device.csUp_wf _ a14
  by_cases hw : s.op = .writePage
  · generalize hp : s.phase = p at *
    cases p <;> simp [Phase.framed] at hf <;> simp [phaseOwned, hw] at a8
    · -- writeEnabling
      rcases a8 with a8 | a8
      · rw [a8, frameEnd_page_wren _ (by simpa using hw) (by simpa using hp)]
        have hwk : s.wakeNeeded = false := by simpa [State.wakeOK, hp] using a10
        constructor
        case device_wf => simpa using hd
        all_goals simp_all [phaseOwned, State.positionOK, State.pollsOK, State.wakeOK, State.welOK, State.rangeGuard,
          State.rangeOK, welAfter, frameEvents]
      · rw [a8, frameEnd_page_verify _ (by simpa using hw) (by simpa using hp)]
        have hwk : s.wakeNeeded = false := by simpa [State.wakeOK, hp] using a10
        have hwl : s.wel = .requested := by simpa [State.welOK, hp, a8] using a11
        split
        · constructor
          case device_wf => simpa using hd
          all_goals simp_all [phaseOwned, State.positionOK, State.pollsOK, State.wakeOK, State.welOK,
            State.rangeGuard, State.rangeOK, welAfter, frameEvents]
        · constructor
          case device_wf => simpa using hd
          all_goals simp_all [phaseOwned, State.positionOK, State.pollsOK, State.wakeOK, State.welOK,
            State.rangeGuard, State.rangeOK, welAfter, frameEvents]
    · rw [a8, frameEnd_page_write _ _ (by simpa using hw) (by simpa using hp)]
      have hwk : s.wakeNeeded = false := by simpa [State.wakeOK, hp] using a10
      split
      · constructor
        case device_wf => simpa using hd
        all_goals simp_all [phaseOwned, State.positionOK, State.pollsOK, State.wakeOK, State.welOK, State.rangeGuard,
          State.rangeOK, welAfter, frameEvents, Cfg.pollBound]
      · constructor
        case device_wf => simpa using hd
        all_goals simp_all [phaseOwned, State.positionOK, State.pollsOK, State.wakeOK, State.welOK, State.rangeGuard,
          State.rangeOK, welAfter, frameEvents]
    · rw [a8, frameEnd_page_poll _ _ (by simpa using hw) (by simpa using hp)]
      have hwk : s.wakeNeeded = false := by simpa [State.wakeOK, hp] using a10
      have hwl : s.wel = .clear := by simpa [State.welOK, hp] using a11
      split
      · split
        · constructor
          case device_wf => simpa using hd
          all_goals simp_all [phaseOwned, State.positionOK, State.pollsOK, State.wakeOK, State.welOK,
            State.rangeGuard, State.rangeOK, welAfter, frameEvents]
        · constructor
          case device_wf => simpa using hd
          case polls =>
            rename_i hne
            simp only [State.pollsOK, closeFrame_phase, csDeassert_phase, hp, closeFrame_k, csDeassert_k,
              closeFrame_cfg, csDeassert_cfg] at a12 hne ⊢
            simp
            have := a12.2.2
            refine ⟨a12.1, a12.2.1, ?_⟩
            split at this <;> omega
          all_goals simp_all [phaseOwned, State.positionOK, State.wakeOK, State.welOK, State.rangeGuard,
            State.rangeOK, welAfter, frameEvents]
      · constructor
        case device_wf => simpa using hd
        all_goals simp_all [phaseOwned, State.positionOK, State.pollsOK, State.wakeOK, State.welOK, State.rangeGuard,
          State.rangeOK, welAfter, frameEvents]
  · rw [frameEnd_single _ _ (by simpa using hw)]
    constructor
    case device_wf => simpa using hd
    case asleep_clear =>
      have hwk : s.wakeNeeded = false := by
        generalize hp : s.phase = p at *
        cases p <;> simp [Phase.framed] at hf <;> simpa [State.wakeOK, hp] using a10
      generalize s.frame = f
      cases f <;> simp [hwk, welAfter]
    all_goals simp_all [phaseOwned, State.positionOK, State.pollsOK, State.wakeOK, State.welOK, State.rangeGuard,
      State.rangeOK]

/-- Every event of the frame in progress keeps the invariant. -/
theorem inv_frameStep {s : State} (h : s.Inv) (hf : s.phase.framed = true) : (frameStep s.frame s).Inv := by
  rcases frameStep_cases s.frame s with ⟨h0, e⟩ | ⟨h0, h1, e⟩ | ⟨h0, h1, e⟩ | ⟨-, e⟩ <;> rw [e]
  · exact inv_frame_csAssert h hf h0
  · exact inv_frame_send h hf h0 h1 _
  · exact inv_frame_recv h hf h0 h1 _
  · exact inv_frame_end h hf

/-- The host's pending turns are outside the invariant. -/
theorem inv_schedule {s : State} (h : s.Inv) (l : List Turn) : ({ s with schedule := l } : State).Inv := by
  obtain ⟨a1, a2, a3, a4, a5, a6, a7, a8, a9, a10, a11, a12, a13, a14, a15, a16⟩ := h
  constructor <;> assumption

/-- `hrdata` is outside the invariant. -/
theorem inv_hrdata {s : State} (h : s.Inv) (l : Word) : ({ s with hrdata := l } : State).Inv := by
  obtain ⟨a1, a2, a3, a4, a5, a6, a7, a8, a9, a10, a11, a12, a13, a14, a15, a16⟩ := h
  constructor <;> assumption

/-- A block that is not busy is idle (R35). -/
theorem idle_of {s : State} (h : s.Inv) (hb : s.busy = false) : s.phase = .idle := by
  by_contra hc
  have := h.busy_running.2 hc
  simp_all

/-- `CommandWrite` keeps the invariant (R76). -/
theorem inv_commandWrite {s : State} (h : s.Inv) (o : Op) : (commandWrite o s).Inv := by
  unfold commandWrite
  split
  · exact h
  split
  · obtain ⟨a1, a2, a3, a4, a5, a6, a7, a8, a9, a10, a11, a12, a13, a14, a15, a16⟩ := h
    constructor <;> assumption
  · rename_i h1 h2
    have hb : s.busy = false := by simpa using h2
    have hid := idle_of h hb
    obtain ⟨a1, a2, a3, a4, a5, a6, a7, a8, a9, a10, a11, a12, a13, a14, a15, a16⟩ := h
    have hop : s.isOpen = false := by simpa [State.positionOK, hid] using a9
    constructor <;> simp_all [phaseOwned, State.positionOK, State.pollsOK, State.wakeOK, State.welOK,
      State.rangeGuard]

/-- `HostWrite` keeps the invariant (R37). -/
theorem inv_hostWrite {s : State} (h : s.Inv) (k : BitVec 10) (w : Word) : (hostWrite k w s).Inv := by
  unfold hostWrite
  split
  · exact inv_commandWrite h _
  split
  · exact h
  rename_i h1 h2
  have hb : s.busy = false := by simpa using h2
  have hid := idle_of h hb
  have h' := h
  obtain ⟨a1, a2, a3, a4, a5, a6, a7, a8, a9, a10, a11, a12, a13, a14, a15, a16⟩ := h
  split_ifs
  · constructor <;> try with_reducible assumption
    all_goals simp_all [State.positionOK, State.pollsOK, State.wakeOK, State.welOK, State.rangeGuard]
  · constructor <;> try with_reducible assumption
    all_goals simp_all [State.positionOK, State.pollsOK, State.wakeOK, State.welOK, State.rangeGuard]
  · constructor <;> try with_reducible assumption
    all_goals simp_all [State.positionOK, State.pollsOK, State.wakeOK, State.welOK, State.rangeGuard]
  · constructor <;> try with_reducible assumption
    all_goals simp_all [State.positionOK, State.pollsOK, State.wakeOK, State.welOK, State.rangeGuard]
  · constructor
    case wrbuf_wf => have hq := Buffer.wf_putWord (b := s.wrbuf) a15 (k.toNat - 256) w; simpa using hq
    all_goals first | with_reducible assumption | skip
    all_goals simp_all [State.positionOK, State.pollsOK, State.wakeOK, State.welOK, State.rangeGuard]
  · exact h'

/-- A reset establishes everything the invariant says of the block; the device and buffers were canonical (R34). -/
theorem inv_blockReset {s : State} (h : s.Inv) : (blockReset s).Inv := by
  constructor <;> simp [blockReset, State.reset, phaseOwned, State.positionOK, State.pollsOK, State.wakeOK,
    State.welOK, State.rangeGuard]
  · split
    · exact Device.csUp_wf _ h.device_wf
    · exact h.device_wf
  · exact h.wrbuf_wf
  · exact h.rdbuf_wf

/-- A power cycle of the block keeps the invariant: a reset and empty buffers (R112). -/
theorem inv_blockPowerOn {s : State} (h : s.Inv) : (blockPowerOn s).Inv := by
  obtain ⟨a1, a2, a3, a4, a5, a6, a7, a8, a9, a10, a11, a12, a13, a14, -, -⟩ := inv_blockReset h
  constructor <;> assumption

/-- A power cycle of the device keeps the invariant (R50). -/
theorem inv_devicePowerUp {s : State} (h : s.Inv) : (devicePowerUp s).Inv := by
  cases hd : s.device with
  | oracle l => rwa [devicePowerUp_oracle hd]
  | reference r =>
    rw [devicePowerUp_reference hd]
    have hw : Memory.wf Config.framSize r.arr = true ∧ r.sr.getLsbD 0 = false := by
      have := h.device_wf
      rwa [hd] at this
    obtain ⟨a1, a2, a3, a4, a5, a6, a7, a8, a9, a10, a11, a12, a13, -, a15, a16⟩ := h
    constructor
    case device_wf =>
      obtain ⟨h1, -, h3, -⟩ := RefDevice.powerCycle_cases (Config.powerUpStatus s.draws) s.isOpen r
      exact ⟨h1 ▸ hw.1, h3⟩
    all_goals assumption

/-- Entering a command's body, with WAKE_NEEDED clear, keeps the invariant. -/
theorem inv_begin {s : State} (h : s.Inv) (ho : s.isOpen = false) (hb : s.busy = true) (hop : s.op ≠ .illegal)
    (hwel : s.op = .write → s.wel = .verified) (hr : bearsAddress s.op = true → s.rangeOK = true) (hk : s.k = 0)
    (tr : List BusEvent) : (startOf s.op { s with wakeNeeded := false, trace := tr }).Inv := by
  have e : ∀ t, startOf s.op t = beginBody (bodyStart s.op).1 (bodyStart s.op).2 t := by
    intro t
    cases ho : s.op <;> first | rfl | exact absurd ho hop
  rw [e]
  have hpc := h.polls.1
  obtain ⟨a1, a2, a3, a4, a5, a6, a7, a8, a9, a10, a11, a12, a13, a14, a15, a16⟩ := h
  have hpos := outLen_pos (bodyStart s.op).2
    (beginBody (bodyStart s.op).1 (bodyStart s.op).2 { s with wakeNeeded := false, trace := tr })
  have hr' : bearsAddress s.op = true →
      (beginBody (bodyStart s.op).1 (bodyStart s.op).2 { s with wakeNeeded := false, trace := tr }).rangeOK = true := hr
  have hd : (s.done = true → False) := fun hx => by simp [a5 hx] at hb
  clear a1 a3 a4 a5 a8 a9 a10 a11 a12 a13
  constructor
  case device_wf => exact a14
  case wrbuf_wf => exact a15
  case rdbuf_wf => exact a16
  all_goals generalize hoo : s.op = o at *
  all_goals cases o <;> simp_all [bodyStart, phaseOwned, State.positionOK, State.pollsOK, State.wakeOK, State.welOK,
    State.rangeGuard, frameEvents]

/-- Validation keeps the invariant (R77). -/
theorem inv_validate {s : State} (h : s.Inv) (hp : s.phase = .accepted) : (validate s.op (startOf s.op) s).Inv := by
  have ho : s.isOpen = false := by simpa [State.positionOK, hp] using h.position
  have hk := h.polls
  have hb : s.busy = true := h.busy_running.2 (by simp [hp])
  simp only [State.pollsOK, hp] at hk
  unfold validate
  split
  · exact inv_complete h ho _
  split
  · exact inv_complete h ho _
  split
  · exact inv_complete h ho _
  rename_i h1 h2 h3
  have hr : bearsAddress s.op = true → s.rangeOK = true := by
    intro hb; simpa [hb] using h2
  have hwel : s.op = .write → s.wel = .verified := by
    intro hw; by_contra hc; exact h3 ⟨hw, hc⟩
  split
  · rename_i hwk
    obtain ⟨a1, a2, a3, a4, a5, a6, a7, a8, a9, a10, a11, a12, a13, a14, a15, a16⟩ := h
    have : s.op ≠ .write := by intro hw; have := hwel hw; simp_all
    constructor <;> simp_all [phaseOwned, State.positionOK, State.pollsOK, State.wakeOK, State.welOK,
      State.rangeGuard, State.rangeOK]
  · have hw : s.wakeNeeded = false := by simp_all
    have := inv_begin h ho hb h1 hwel hr hk.2.2 s.trace
    rw [← hw] at this
    exact this

/-- Each step of the wake pulse keeps the invariant (R89). -/
theorem inv_wake {s : State} (h : s.Inv) (hp : s.phase = .waking) : (wakeStep (startOf s.op) s).Inv := by
  have hk := h.polls
  have hb : s.busy = true := h.busy_running.2 (by simp [hp])
  have hpos := h.position
  simp only [State.pollsOK, State.positionOK, hp] at hk hpos
  have how := h.owned
  simp only [phaseOwned, hp] at how
  unfold wakeStep
  split
  · obtain ⟨a1, a2, a3, a4, a5, a6, a7, a8, a9, a10, a11, a12, a13, a14, a15, a16⟩ := h
    constructor
    case device_wf => exact Device.csDown_wf _ a14
    all_goals simp_all [phaseOwned, State.positionOK, State.pollsOK, State.wakeOK, State.welOK, State.rangeGuard,
      State.rangeOK]
  split
  · obtain ⟨a1, a2, a3, a4, a5, a6, a7, a8, a9, a10, a11, a12, a13, a14, a15, a16⟩ := h
    constructor
    case device_wf => exact Device.csUp_wf _ a14
    all_goals simp_all [phaseOwned, State.positionOK, State.pollsOK, State.wakeOK, State.welOK, State.rangeGuard,
      State.rangeOK]
  · rename_i h0 h1
    have ho : s.isOpen = false := by
      have := hpos.1
      simp only [h1, iff_false, Bool.not_eq_true] at this
      exact this
    have hr : bearsAddress s.op = true → s.rangeOK = true := by simpa [State.rangeGuard, hp] using h.ranged
    exact inv_begin h ho hb how.1 (fun hw => absurd hw how.2) hr hk.2.2 _

end Sys2Proof.Machine
end

