-- ==== Sys2Proof/Laws/PerInstr.lean ====
section
/-! SUPPORT. Statements made once per instruction: decoding what `encode` wrote gives the instruction back (R55 to R59).
The SLEEP frame needs a SLEEP_OPCODE of its own (conflict C1; log 1). -/

namespace Sys2Proof.Laws.EncodeDecode

/-- Decode inverts encode on a well-formed instruction. -/
def Statement (i : Instr) : Prop := i.wf = true → (i = .wireSleep → sleepOpcodeFresh = true) → decode (encode i) = .ok i

theorem wren : Statement .wren := fun _ _ => rfl

theorem wrdi : Statement .wrdi := fun _ _ => rfl

theorem rdsr : Statement .rdsr := fun _ _ => rfl

theorem wrsr : Statement .wrsr := fun _ _ => rfl

theorem read : Statement .read := fun _ _ => rfl

theorem write : Statement .write := fun _ _ => rfl

theorem rdid : Statement .rdid := fun _ _ => rfl

theorem sleep : Statement .sleep := fun _ _ => rfl

theorem writePage : Statement .writePage := fun _ _ => rfl

theorem wireWren : Statement .wireWren := fun _ _ => rfl

theorem wireWrdi : Statement .wireWrdi := fun _ _ => rfl

theorem wireRdsr : Statement .wireRdsr := fun _ _ => rfl

theorem wireWrsr : Statement .wireWrsr := fun _ _ => rfl

theorem wireRead : Statement .wireRead := fun _ _ => rfl

theorem wireWrite : Statement .wireWrite := fun _ _ => rfl

theorem wireRdid : Statement .wireRdid := fun _ _ => rfl

theorem wireSleep : Statement .wireSleep := fun _ h => by
  simp only [encode, decode, decodeWire_sleep (h rfl), WireOp.instr]

theorem illegal (w : Word) : Statement (.illegal w) := fun h _ => by
  simp only [encode, decode, decodeCommand_reserved w h]

end Sys2Proof.Laws.EncodeDecode
end

