-- ==== Sys2Proof/Laws/Run.lean ====
section
/-! SUPPORT. What a step is on each kind of turn, and runs of many steps. -/

namespace Sys2Proof.Machine

/-- A sequencer step of a running command is the latched command's instruction (R32). -/
theorem step_sequencer {s : State} (hb : s.busy = true) (hs : s.schedule = []) : step s = exec s.op.instr s := by
  simp [step, fetch, fetchLatched, hs, hb]

/-- A CMD write is `CommandWrite`, whether or not a command runs, in a state whose BUSY agrees with its phase (R37, R76). -/
theorem step_cmdWrite {s : State} {k : BitVec 10} {w : Word} {rest : List Turn} (hs : s.schedule = .host (.write k w) :: rest)
    (hk : k.toNat = 0) (hi : s.busy = false → s.phase = .idle) :
    step s = .next (commandWrite (decodeOp w) { s with schedule := rest }) := by
  by_cases hb : s.busy = false
  · have e : step s = exec (decodeCommand w) { s with schedule := rest } := by simp [step, fetch, hs, hk, hb]
    rw [e]
    exact exec_idle (decodeCommand_op? w) _ (hi hb)
  · have e : step s = .next (hostWrite k w { s with schedule := rest }) := by simp [step, fetch, hs, hk, hb]
    rw [e]
    simp [hostWrite, hk]

/-- Every other host write is the register map's (R37). -/
theorem step_hostWrite {s : State} {k : BitVec 10} {w : Word} {rest : List Turn} (hs : s.schedule = .host (.write k w) :: rest)
    (hk : k.toNat ≠ 0) : step s = .next (hostWrite k w { s with schedule := rest }) := by
  simp [step, fetch, hs, hk]

@[simp] theorem State.run_zero (s : State) : s.run 0 = .next s := rfl

theorem State.run_succ {n : Nat} {s t : State} (h : step s = .next t) : s.run (n + 1) = t.run n := by
  show Host.Core.run Sys2Proof.core (n + 1) s = _
  simp only [Host.Core.run]
  rw [show Sys2Proof.core.step s = .next t from h]
  rfl

/-- A run of `m + n` steps is a run of `m` and then one of `n`. -/
theorem State.run_add {m n : Nat} {s t : State} (h : s.run m = .next t) : s.run (m + n) = t.run n := by
  induction m generalizing s with
  | zero =>
    rw [State.run_zero] at h
    injection h with h
    rw [Nat.zero_add, h]
  | succ m ih =>
    cases hs : step s with
    | next u =>
      rw [State.run_succ hs] at h
      rw [Nat.add_right_comm, State.run_succ hs, ih h]
    | fault f =>
      have e : s.run (m + 1) = .fault f := by
        show Host.Core.run Sys2Proof.core (m + 1) s = _
        simp only [Host.Core.run]
        rw [show Sys2Proof.core.step s = .fault f from hs]
        rfl
      rw [e] at h
      cases h
    | refused r =>
      have e : s.run (m + 1) = .refused r := by
        show Host.Core.run Sys2Proof.core (m + 1) s = _
        simp only [Host.Core.run]
        rw [show Sys2Proof.core.step s = .refused r from hs]
        rfl
      rw [e] at h
      cases h

/-- Where a run from a reachable state gets to is reachable. -/
theorem Reachable.run {n : Nat} {s t : State} (hr : Reachable s) (h : s.run n = .next t) : Reachable t := by
  induction n generalizing s with
  | zero =>
    rw [State.run_zero] at h
    injection h with h
    exact h ▸ hr
  | succ n ih =>
    cases hs : Machine.step s with
    | next u => exact ih (hr.step hs) (by rw [← State.run_succ hs]; exact h)
    | fault f =>
      simp only [State.run, Host.Core.run, show Sys2Proof.core.step s = .fault f from hs] at h
      cases h
    | refused r =>
      simp only [State.run, Host.Core.run, show Sys2Proof.core.step s = .refused r from hs] at h
      cases h

end Sys2Proof.Machine
end

