-- ==== Sys2Proof/Tests/Slice0.lean ====
section
/-! SUPPORT. The model's own tests: well-formedness, words written out from the opcode table, single steps against the
spec's examples, and for every obligation with hypotheses a state that meets them. -/

namespace Sys2Proof.Tests

open Sys2Proof.Machine

/-! ### Well-formedness: `illegal` takes reserved words only (R59) -/

theorem test_wf_refuses_wren_word : (Instr.illegal 0x00000001).wf = false := by decide
theorem test_wf_refuses_writePage_word : (Instr.illegal 0x00000009).wf = false := by decide
theorem test_wf_accepts_reserved : (Instr.illegal 0).wf = true ∧ (Instr.illegal 0xA).wf = true ∧
    (Instr.illegal 0x11).wf = true ∧ (Instr.illegal 0x80000001).wf = true := by decide

/-! ### Decoding: words from the opcode table (R57, R59) and bytes from the opcode list (R56) -/

theorem test_decode_cmd_first : decodeCommand 0x00000001 = .wren ∧ decodeCommand 0x00000002 = .wrdi ∧
    decodeCommand 0x00000003 = .rdsr ∧ decodeCommand 0x00000004 = .wrsr ∧ decodeCommand 0x00000005 = .read := by decide
theorem test_decode_cmd_last : decodeCommand 0x00000006 = .write ∧ decodeCommand 0x00000007 = .rdid ∧
    decodeCommand 0x00000008 = .sleep ∧ decodeCommand 0x00000009 = .writePage := by decide
theorem test_decode_cmd_reserved_op : decodeCommand 0 = .illegal 0 ∧ decodeCommand 0xA = .illegal 0xA ∧
    decodeCommand 0xF = .illegal 0xF := by decide
theorem test_decode_cmd_reserved_bits : decodeCommand 0x11 = .illegal 0x11 ∧
    decodeCommand 0x80000009 = .illegal 0x80000009 ∧ decodeCommand 0xFFFFFFFF = .illegal 0xFFFFFFFF := by decide
theorem test_decode_wire : decode (.wire 0b00000110) = .ok .wireWren ∧ decode (.wire 0b00000100) = .ok .wireWrdi ∧
    decode (.wire 0b00000101) = .ok .wireRdsr ∧ decode (.wire 0b00000001) = .ok .wireWrsr := ⟨rfl, rfl, rfl, rfl⟩
theorem test_decode_wire_data : decode (.wire 0b00000011) = .ok .wireRead ∧ decode (.wire 0b00000010) = .ok .wireWrite ∧
    decode (.wire 0b10011111) = .ok .wireRdid := ⟨rfl, rfl, rfl⟩
theorem test_decode_table_lengths : decodeTableWord 8 0x9F = some .wireRdid ∧ decodeTableWord 32 0x9F = some (.illegal 0x9F) ∧
    decodeTableWord 16 0x06 = none := ⟨rfl, by decide, rfl⟩

/-! ### States for the tests -/

/-- The reset state in the middle of a command, at event `pos` of frame `f`. -/
def mid (op : Op) (p : Phase) (f : WireOp) (pos : Nat) (wel : Wel) : State :=
  { State.reset with
    busy := true, op := op, phase := p, frame := f, pos := pos, wel := wel, wakeNeeded := false
    isOpen := decide (1 ≤ pos), csN := !decide (1 ≤ pos) }

/-- The reset state between commands, or just after one was accepted, with the given host turns pending. -/
def quietState (op : Op) (busy : Bool) (turns : List Turn) : State :=
  { State.reset with busy := busy, op := op, phase := if busy then .accepted else .idle, schedule := turns }

/-- What a step answers, if it is a next state. -/
def next? : Out → Option State
  | .next t => some t
  | .fault _ => none
  | .refused _ => none

/-- Read a field of the state an instruction leads to. -/
def after {α : Type} (i : Instr) (s : State) (f : State → α) : Option α := (next? (exec i s)).map f

/-! ### Single steps -/

-- R83: after `CS↓ 06`, CS↑ ends WREN with WL_REQUESTED and RESULT OK.
theorem test_wren_end : after .wren (mid .wren .framing .wren 2 .verified) (fun t => (t.wel, t.done, t.busy, t.csN)) =
    some (.requested, true, false, true) := by decide
theorem test_wireWren_byte : after .wireWren (mid .wren .framing .wren 1 .clear) (fun t => t.trace) =
    some [.sent 0x06] := by decide
-- R84: "after WREN, CMD WRDI gives CS↓ 04 CS↑ and WEL_STATE = 0".
theorem test_wrdi_end : after .wrdi (mid .wrdi .framing .wrdi 2 .requested) (fun t => (t.wel, t.result)) =
    some (.clear, .ok) := by decide
theorem test_wireWrdi_byte : after .wireWrdi (mid .wrdi .framing .wrdi 1 .clear) (fun t => t.trace) =
    some [.sent 0x04] := by decide
-- R85: sr = 0xFD from WL_VERIFIED gives WL_CLEAR and LAST_SR = 0xFD.
theorem test_rdsr_byte : after .rdsr { mid .rdsr .framing .rdsr 2 .verified with device := .oracle [0xFD] }
    (fun t => (t.lastSr, t.trace)) = some (0xFD, [.exchanged 0x00 0xFD]) := by decide
theorem test_rdsr_end : after .rdsr { mid .rdsr .framing .rdsr 3 .verified with lastSr := 0xFD } (fun t => t.wel) =
    some .clear := by decide
-- R82, D35: bit 1 = 1 verifies only after a WREN.
theorem test_wireRdsr_verifies : after .wireRdsr { mid .rdsr .framing .rdsr 3 .requested with lastSr := 0x02 }
    (fun t => t.wel) = some .verified := by decide
theorem test_wireRdsr_unasked : after .wireRdsr { mid .rdsr .framing .rdsr 3 .clear with lastSr := 0xFF }
    (fun t => t.wel) = some .clear := by decide
-- R86: "WRSR_DATA = 0x8C gives CS↓ 01 8C CS↑".
theorem test_wrsr_data : after .wrsr { mid .wrsr .framing .wrsr 2 .clear with wrsrData := 0x8C } (fun t => t.trace) =
    some [.sent 0x8C] := by decide
theorem test_wireWrsr_opcode : after .wireWrsr (mid .wrsr .framing .wrsr 1 .clear) (fun t => t.trace) =
    some [.sent 0x01] := by decide
-- R87: "ADDR = 0x0100, LEN = 2, WRBUF[0..1] = AA BB: CS↓ 02 01 00 AA BB CS↑".
theorem test_write_data : after .write { mid .write .framing .write 5 .verified with
      addr := 0x0100, len := 2, wrbuf := [(0, 0xAA), (1, 0xBB)] } (fun t => t.trace) = some [.sent 0xBB] := by decide
theorem test_write_guard : after .write { quietState .write true [] with wel := .requested, wakeNeeded := false }
    (fun t => (t.result, t.busy, t.trace)) = some (.writeNotEnabled, false, []) := by decide
theorem test_wireWrite_address : after .wireWrite { mid .write .framing .write 2 .verified with addr := 0x0100 }
    (fun t => t.trace) = some [.sent 0x01] := by decide
theorem test_wireWrite_empty : after .wireWrite (mid .write .framing .write 4 .verified) (fun t => (t.wel, t.result)) =
    some (.clear, .ok) := by decide
-- R78: ADDR = 32768, LEN = 0 fails; ADDR = 32767, LEN = 1 is legal.
theorem test_read_range : after .read { quietState .read true [] with addr := 32768 } (fun t => t.result) =
    some .addressOutOfRange := by decide
theorem test_read_edge : after .read { quietState .read true [] with addr := 32767, len := 1, wakeNeeded := false }
    (fun t => t.phase) = some .reading := by decide
theorem test_wireRead_byte : after .wireRead { mid .read .reading .read 5 .clear with len := 2, device := .oracle [0x5A] }
    (fun t => t.rdbuf) = some [(1, 0x5A)] := by decide
-- R82: READ and RDID fall back to WL_REQUESTED.
theorem test_wireRead_end : after .wireRead (mid .read .reading .read 4 .verified) (fun t => t.wel) =
    some .requested := by decide
theorem test_rdid_byte : after .rdid { mid .rdid .identifying .rdid 2 .clear with device := .oracle [0x04] }
    (fun t => (t.rdbuf, t.pos)) = some ([(0, 0x04)], 3) := by decide
theorem test_wireRdid_opcode : after .wireRdid (mid .rdid .identifying .rdid 1 .clear) (fun t => t.trace) =
    some [.sent 0x9F] := by decide
-- R92: after SLEEP, WAKE_NEEDED = 1 and WL_CLEAR.
theorem test_sleep_end : after .sleep (mid .sleep .framing .sleep 2 .requested) (fun t => (t.wakeNeeded, t.wel)) =
    some (true, .clear) := by decide
theorem test_wireSleep_begin : after .wireSleep (mid .sleep .framing .sleep 0 .clear) (fun t => (t.csN, t.trace)) =
    some (false, [.csDown]) := by decide
-- R94: the verify RDSR with bit 1 = 0 ends WRITE_PAGE with WRITE_NOT_ENABLED.
theorem test_writePage_verify : after .writePage { mid .writePage .writeEnabling .rdsr 3 .requested with lastSr := 0xFD }
    (fun t => (t.result, t.busy, t.wel)) = some (.writeNotEnabled, false, .clear) := by decide
-- R95: with POLL_MAX = 0 one poll with bit 1 = 1 is one too many.
theorem test_writePage_timeout : after .writePage { mid .writePage .polling .rdsr 3 .clear with
      lastSr := 0x02, k := 1, pollCount := 1, cfg := { Cfg.reset with pollMax := 0 } }
    (fun t => (t.result, t.pollCount)) = some (.deviceTimeout, 1) := by decide
-- R88: `W CMD, 0x0000000A`, then STATUS reads 0x00000012 (WAKE_NEEDED = 0).
theorem test_illegal_status : after (.illegal 0xA) { quietState .illegal true [] with wakeNeeded := false }
    (fun t => hostRead 1 t) = some 0x00000012 := by decide
theorem test_illegal_accepted : after (.illegal 0) (quietState .illegal false []) (fun t => (t.busy, t.phase, t.op)) =
    some (true, .accepted, .illegal) := by decide

/-! ### The host port (R34, R37, R38) -/

-- R34: STATUS and CFG after reset.
theorem test_reset_status : hostRead 1 State.reset = 0x00000040 ∧ hostRead 4 State.reset = 0xFF04FF01 := by decide
-- R38: after `HostWrite(256, 0x00000001)`, WRBUF[0] = 0x01 and WRBUF[1..3] = 0x00.
theorem test_wrbuf_little_endian : (hostWrite 256 0x00000001 State.reset).wrbuf =
    [(0, 0x01), (1, 0x00), (2, 0x00), (3, 0x00)] := by decide
-- R37: a CFG write keeps the reserved bits at 0.
theorem test_cfg_reserved : hostRead 4 (hostWrite 4 0xFFFFFFFF State.reset) = 0xFF0FFF01 := by decide
theorem test_reset_mid_frame : (blockReset (mid .write .framing .write 3 .verified)).trace = [.csUp] ∧
    (blockReset (mid .write .framing .write 3 .verified)).csN = true := by decide

/-! ### Witnesses: a state that meets the hypotheses of each obligation -/

/-- A state in the middle of a frame meets the invariant. -/
theorem mid_inv (op : Op) (p : Phase) (f : WireOp) (pos : Nat) (wel : Wel) (hp : p.framed = true)
    (how : phaseOwned op p f) (hpos : pos < frameEvents f State.reset) (hw : (mid op p f pos wel).welOK) :
    (mid op p f pos wel).Inv := by
  have hr : (mid op p f pos wel).rangeOK = true := rfl
  have he : frameEvents f (mid op p f pos wel) = frameEvents f State.reset := frameEvents_congr f rfl rfl
  have hb : (mid op p f pos wel).cfg.pollBound = 256 := rfl
  constructor
  case wel_ok => exact hw
  case owned => exact how
  case position => cases p <;> simp_all [State.positionOK, mid, Phase.framed]
  case polls =>
    have hk : (mid op p f pos wel).k = 0 := rfl
    refine ⟨rfl, by simp [hk], ?_⟩
    rw [hb, hk]
    cases p <;> simp only [mid]
    by_cases hq : pos ≤ 2 <;> simp [hq]
  case wakes => cases p <;> simp_all [State.wakeOK, mid, Phase.framed]
  case ranged => cases p <;> simp_all [State.rangeGuard, Phase.framed, mid]
  case busy_running => cases p <;> simp_all [mid, Phase.framed]
  all_goals simp [mid, State.reset, Device.wf]

/-- A state between commands, or just after one was accepted, meets the invariant. -/
theorem quiet_inv (op : Op) (busy : Bool) (turns : List Turn) : (quietState op busy turns).Inv := by
  constructor <;> cases busy <;>
    simp [quietState, State.reset, phaseOwned, State.positionOK, State.wakeOK, State.welOK, State.pollsOK,
      State.rangeGuard, Device.wf]

theorem test_witness_CommandWordsDecodeAsTheSpecSays :
    (∀ n ∈ [0, 1, 2, 3, 4, 5, 6, 7, 8, 9, 10, 15],
      (BitVec.ofNat 32 n).extractLsb' 4 28 = 0 ∧ ((BitVec.ofNat 32 n).extractLsb' 0 4).toNat = n) ∧
    (0x00000010 : Word).extractLsb' 4 28 ≠ 0 ∧ (0x80000001 : Word).extractLsb' 4 28 ≠ 0 := by decide

theorem test_witness_DecodeInvertsEncode : (Instr.illegal 0xA).wf = true ∧
    ((Instr.illegal 0xA) = .wireSleep → sleepOpcodeFresh = true) ∧ Instr.wireRdid.wf = true ∧
    (Instr.wireRdid = .wireSleep → sleepOpcodeFresh = true) :=
  ⟨by decide, nofun, by decide, nofun⟩

theorem test_witness_EncodeInvertsDecode : decode (.cmd 0x10) = .ok (.illegal 0x10) ∧
    decode (.wire 0x9F) = .ok .wireRdid := ⟨rfl, rfl⟩

theorem test_witness_StepRunsTheWrittenCommand :
    (quietState .illegal false [.host (.write 0 3)]).schedule = .host (.write 0 3) :: [] ∧
      (quietState .illegal false [.host (.write 0 3)]).busy = false := by decide

theorem test_witness_StepRunsTheLatchedCommand :
    ((quietState .rdsr true []).busy = true ∧ (quietState .rdsr true []).schedule = []) ∧
      (quietState .rdsr true [.sequencer]).busy = true ∧
      (quietState .rdsr true [.sequencer]).schedule = .sequencer :: [] := by decide

theorem test_witness_StepRunsTheFrameInProgress : (mid .rdsr .framing .rdsr 2 .clear).Inv ∧
    (mid .rdsr .framing .rdsr 2 .clear).phase.framed = true ∧ (mid .rdsr .framing .rdsr 2 .clear).schedule = [] :=
  ⟨mid_inv _ _ _ _ _ rfl (by simp [phaseOwned]) (by decide) (by simp [State.welOK, mid]), rfl, rfl⟩

theorem test_witness_LoadedWordRunsNext : decodeWire (BitVec.ofNat 8 0x06) = some .wren ∧
    decodeWire (BitVec.ofNat 8 0x9F) = some .rdid := ⟨rfl, rfl⟩

theorem test_witness_IdleSequencerRests : (quietState .illegal false []).busy = false ∧
    (quietState .illegal false []).schedule = [] ∧
    (quietState .illegal false [.sequencer]).schedule = .sequencer :: [] := by decide

theorem test_witness_resets : ({ mid .write .framing .write 3 .verified with schedule := [.reset] } : State).schedule =
    .reset :: [] ∧ ({ mid .write .framing .write 3 .verified with schedule := [.reset] } : State).isOpen = true ∧
    (quietState .illegal false [.reset]).isOpen = false := by decide

/-- The statements about a step, or many steps, from a state that meets the invariant. -/
theorem test_witness_step_invariants : (quietState .read true []).Inv ∧ (quietState .read true []).busy = true ∧
    (quietState .read true []).hostSilent ∧ ∃ t, step (quietState .read true []) = .next t :=
  ⟨quiet_inv _ _ _, rfl, rfl, _, rfl⟩

theorem test_witness_ReachableStatesAreCoherent : Reachable { State.reset with schedule := [.waitIdle], device := .oracle [] } :=
  .start _ _ trivial

/-- From power-on, WRITE_PAGE on a device that answers its RDSR with 0x02, up to the step before its WRITE frame. -/
def pageStart : State :=
  { State.reset with schedule := [.host (.write 0 0x00000009)], device := .oracle [0x00, 0x00, 0x02] }

/-- The state the machine is in after `n` steps, or the reset state if it stopped. -/
def stateAfter (n : Nat) (s : State) : State := (next? (s.run n)).getD State.reset

theorem test_witness_ChipSelectIsReleased : Reachable (stateAfter 5 pageStart) ∧ (stateAfter 5 pageStart).phase.framed = true ∧
    (stateAfter 5 pageStart).pos = 0 ∧ Reachable (stateAfter 4 pageStart) ∧ (stateAfter 4 pageStart).phase = .waking ∧
    (stateAfter 4 pageStart).pos = 2 :=
  ⟨Reachable.run (.start _ _ trivial) (n := 5) (s := pageStart) rfl, rfl, rfl,
    Reachable.run (.start _ _ trivial) (n := 4) (s := pageStart) rfl, rfl, rfl⟩

theorem test_witness_WriteFramesFollowAConfirmingRdsr : Reachable (stateAfter 12 pageStart) ∧
    step (stateAfter 12 pageStart) = .next (stateAfter 13 pageStart) ∧ (stateAfter 12 pageStart).isOpen = false ∧
    (stateAfter 13 pageStart).isOpen = true ∧ (stateAfter 13 pageStart).frame = .write ∧
    (stateAfter 13 pageStart).phase.framed = true :=
  ⟨Reachable.run (.start _ _ trivial) (n := 12) (s := pageStart) rfl, rfl, rfl, rfl, rfl, rfl⟩

-- R122: a READ frame between the WREN and the RDSR does not void the WREN; a WRDI frame does.
theorem test_wrenPending_read :
    WrenPending [.csUp, .exchanged 0 7, .sent 1, .sent 0, .sent 0x03, .csDown, .csUp, .sent 0x06, .csDown] :=
  .read (.wren []) 0 1 [7]
theorem test_wrenPending_wrdi : ¬WrenPending [.csUp, .sent 0x04, .csDown, .csUp, .sent 0x06, .csDown] := by
  generalize hl : [BusEvent.csUp, .sent 0x04, .csDown, .csUp, .sent 0x06, .csDown] = l
  intro h
  cases h with
  | read h hi lo data => cases data <;> simp at hl
  | rdid h data => cases data <;> simp at hl
  | _ => simp at hl

theorem test_witness_MisuseLocksUntilReset :
    (quietState .illegal false [.host (.write 0 1)]).Inv ∧
    (∀ x ∈ (quietState .illegal false [.host (.write 0 1)]).schedule, x ≠ .reset ∧ x ≠ .powerOn) ∧
    (∀ x ∈ (quietState .illegal false [.host (.write 0 1)]).schedule, x ≠ .devicePowerUp) ∧
    next? (({ quietState .illegal false [.host (.write 0 1)] with misuse := true } : State).run 1) ≠ none :=
  ⟨quiet_inv _ _ _, by decide, by decide, by decide⟩

theorem test_witness_WaitingHostNeverMisuses : (quietState .illegal false [.host (.write 0 1)]).hostWaits ∧
    (quietState .illegal false [.host (.write 0 1)]).misuse = false :=
  ⟨fun _ _ _ _ _ => rfl, rfl⟩

/-- The last event of each frame, in a state that meets the invariant: the rows of the table of R82. -/
theorem test_witness_LatchFollowsItsTable :
    (∀ w, (mid .wren .framing .wren 2 w).Inv ∧ (mid .wren .framing .wren 2 w).closing) ∧
    (∀ w, (mid .rdsr .framing .rdsr 3 w).Inv ∧ (mid .rdsr .framing .rdsr 3 w).closing) ∧
    (∀ w, (mid .read .reading .read 4 w).Inv ∧ (mid .read .reading .read 4 w).closing) ∧
    (∀ w, (mid .wrsr .framing .wrsr 3 w).Inv ∧ (mid .wrsr .framing .wrsr 3 w).closing) ∧
    ((mid .write .framing .write 4 .verified).Inv ∧ (mid .write .framing .write 4 .verified).closing) := by
  refine ⟨fun w => ⟨?_, ?_⟩, fun w => ⟨?_, ?_⟩, fun w => ⟨?_, ?_⟩, fun w => ⟨?_, ?_⟩, ?_, ?_⟩
  all_goals first
    | exact ⟨rfl, rfl, rfl⟩
    | exact mid_inv _ _ _ _ _ rfl (by simp [phaseOwned]) (by decide) (by simp [State.welOK, mid])

/-- The ways STATUS flags and bookkeeping registers change (R23): the status byte of a poll, a wake pulse's wait, a SLEEP
frame's end, a CMD write to a busy block. -/
theorem test_witness_FlagsChangeOnlyAsListed :
    (mid .writePage .polling .rdsr 2 .clear).Inv ∧ (mid .sleep .framing .sleep 2 .clear).Inv ∧
    (mid .sleep .framing .sleep 2 .clear).closing ∧ (quietState .read true [.host (.write 0 1)]).Inv ∧
    (quietState .read true [.host (.write 0 1)]).sequencerTurn = False ∧
    ¬(quietState .read true [.host (.write 0 1)]).resetTurn := by
  refine ⟨mid_inv _ _ _ _ _ rfl (by simp [phaseOwned]) (by decide) (by simp [State.welOK, mid]),
    mid_inv _ _ _ _ _ rfl (by simp [phaseOwned]) (by decide) (by simp [State.welOK, mid]), ⟨rfl, rfl, rfl⟩, quiet_inv _ _ _, ?_, ?_⟩ <;>
    simp [State.sequencerTurn, State.resetTurn, quietState]

/-- R45: the completing step of a READ, a poll's last, and an idle block at a CMD write. -/
theorem test_witness_CompletionComesAfterItsEffects :
    ((mid .read .reading .read 4 .clear).Inv ∧ (mid .read .reading .read 4 .clear).busy = true ∧
      ¬(mid .read .reading .read 4 .clear).resetTurn ∧
      ∃ t, step (mid .read .reading .read 4 .clear) = .next t ∧ t.busy = false) ∧
    ((quietState .illegal false [.host (.write 0 1)]).Inv ∧ (quietState .illegal false [.host (.write 0 1)]).busy = false ∧
      ¬(quietState .illegal false [.host (.write 0 1)]).resetTurn ∧
      ∃ t, step (quietState .illegal false [.host (.write 0 1)]) = .next t ∧ t.busy = true) := by
  refine ⟨⟨mid_inv _ _ _ _ _ rfl (by simp [phaseOwned]) (by decide) (by simp [State.welOK, mid]), rfl, ?_, _, rfl, rfl⟩,
    ⟨quiet_inv _ _ _, rfl, ?_, _, rfl, rfl⟩⟩ <;> simp [State.resetTurn, mid, quietState, State.reset]

/-- A state whose registers, buffers and flags differ from one another, and from zero. -/
def full : State :=
  { State.reset with
    done := true, result := .deviceTimeout, misuse := true, addr := 0x12345678, len := 0x7FF, wrsrData := 0xAB
    lastSr := 0xCD, pollCount := 256, wakeNeeded := false, wel := .verified
    wrbuf := [(0, 1), (1, 2), (2, 3), (3, 4), (1020, 5), (1021, 6), (1022, 7), (1023, 8)]
    rdbuf := [(0, 9), (1, 10), (2, 11), (3, 12), (1020, 13), (1021, 14), (1022, 15), (1023, 16)] }

-- R37: every clause of the register map, at the ends of each range.
theorem test_witness_HostReadsFollowTheMap_registers : hostRead 0 full = 0 ∧ hostRead 1 full = 0x0000012E ∧
    hostRead 2 full = 0x12345678 ∧ hostRead 3 full = 0x7FF ∧ hostRead 4 full = 0xFF04FF01 ∧ hostRead 5 full = 0xAB ∧
    hostRead 6 full = 0xCD ∧ hostRead 7 full = 256 ∧ hostRead 8 full = 0 ∧ hostRead 255 full = 0 ∧
    hostRead 768 full = 0 ∧ hostRead 1023 full = 0 := by decide
theorem test_witness_HostReadsFollowTheMap_windows : hostRead 256 full = 0x04030201 ∧ hostRead 511 full = 0x08070605 ∧
    hostRead 512 full = 0x0C0B0A09 ∧ hostRead 767 full = 0x100F0E0D := by decide
theorem test_witness_HostReads_turn : (quietState .illegal false [.host (.read 1023)]).schedule = .host (.read 1023) :: [] := rfl

-- R37: every clause of a write, at the ends of each range; nothing while busy.
theorem test_witness_HostWritesFollowTheMap_registers : hostWrite 1 0xFFFFFFFF full = full ∧
    (hostWrite 2 7 full).addr = 7 ∧ (hostWrite 3 0xFFFFF800 full).len = 0 ∧ (hostWrite 4 0 full).cfg.pollMax = 0 ∧
    (hostWrite 5 0x1FF full).wrsrData = 0xFF ∧ hostWrite 6 0 full = full ∧ hostWrite 7 0 full = full := by decide
theorem test_witness_HostWritesFollowTheMap_ranges : hostWrite 8 0 full = full ∧ hostWrite 255 0 full = full ∧
    hostWrite 512 0 full = full ∧ hostWrite 767 0 full = full ∧ hostWrite 768 0 full = full ∧
    hostWrite 1023 0 full = full := by decide
theorem test_witness_HostWritesFollowTheMap_windows : Memory.read (fun _ => 0) (hostWrite 256 0xA1 full).wrbuf 0 = 0xA1 ∧
    Memory.read (fun _ => 0) (hostWrite 511 0xB2000000 full).wrbuf 1023 = 0xB2 ∧
    hostWrite 256 0xA1 (quietState .read true []) = quietState .read true [] := by decide

theorem test_witness_BufferWindowsAreLittleEndian : (255 : Nat) < 256 ∧ full.busy = false ∧
    hostRead (BitVec.ofNat 10 (512 + 255)) full = 0x100F0E0D := by decide

theorem test_witness_CommandWriteAcceptsOrMarksMisuse :
    (quietState .read true [.host (.write 0 1)]).Inv ∧ (quietState .read true [.host (.write 0 1)]).busy = true ∧
    (quietState .illegal false [.host (.write 0 1)]).Inv ∧ (quietState .illegal false [.host (.write 0 1)]).busy = false ∧
    (quietState .illegal false [.host (.write 0 1)]).misuse = false :=
  ⟨quiet_inv _ _ _, rfl, quiet_inv _ _ _, rfl, rfl⟩

-- R77, R78: each outcome of validation; the range check where its clauses meet.
theorem test_witness_Validation : Instr.writePage.op? = some .writePage ∧ (quietState .writePage true []).phase = .accepted ∧
    (quietState .writePage true []).wakeNeeded = true ∧ addrOK 32767 1 = true ∧ addrOK 32767 2 = false ∧
    addrOK 32768 0 = false ∧ addrOK 0 1024 = true ∧ addrOK 0 1025 = false ∧ addrOK 31744 1024 = true ∧
    addrOK 31745 1024 = false ∧ addrOK 0xFFFFFFFF 1 = false := by decide

theorem test_witness_WakePulseIsThreeSteps : ∀ p ∈ [0, 1, 2],
    ({ quietState .wren true [] with phase := .waking, pos := p } : State).phase = .waking ∧
    ({ quietState .wren true [] with phase := .waking, pos := p } : State).pos = p ∧ Instr.wren.op? = some .wren := by decide

theorem test_witness_ReservedWordsCompleteIllegal : (quietState .illegal true []).phase = .accepted := rfl

theorem test_witness_WrenSendsItsFrame : ∀ p ∈ [0, 1, 2], (Instr.wren = .wren ∨ Instr.wren = .wireWren) ∧
    (mid .wren .framing .wren p .clear).op = .wren ∧ (mid .wren .framing .wren p .clear).phase = .framing ∧
    (mid .wren .framing .wren p .clear).frame = .wren ∧ (mid .wren .framing .wren p .clear).pos = p := by decide

theorem test_witness_WrdiSendsItsFrame : ∀ p ∈ [0, 1, 2], (Instr.wrdi = .wrdi ∨ Instr.wrdi = .wireWrdi) ∧
    (mid .wrdi .framing .wrdi p .clear).op = .wrdi ∧ (mid .wrdi .framing .wrdi p .clear).phase = .framing ∧
    (mid .wrdi .framing .wrdi p .clear).frame = .wrdi ∧ (mid .wrdi .framing .wrdi p .clear).pos = p := by decide

theorem test_witness_RdsrSendsItsFrame : ∀ p ∈ [0, 1, 2, 3], (Instr.rdsr = .rdsr ∨ Instr.rdsr = .wireRdsr) ∧
    (mid .rdsr .framing .rdsr p .clear).op = .rdsr ∧ (mid .rdsr .framing .rdsr p .clear).phase = .framing ∧
    (mid .rdsr .framing .rdsr p .clear).frame = .rdsr ∧ (mid .rdsr .framing .rdsr p .clear).pos = p := by decide

theorem test_witness_WrsrSendsItsFrame : ∀ p ∈ [0, 1, 2, 3], (Instr.wrsr = .wrsr ∨ Instr.wrsr = .wireWrsr) ∧
    (mid .wrsr .framing .wrsr p .clear).op = .wrsr ∧ (mid .wrsr .framing .wrsr p .clear).phase = .framing ∧
    (mid .wrsr .framing .wrsr p .clear).frame = .wrsr ∧ (mid .wrsr .framing .wrsr p .clear).pos = p := by decide

theorem test_witness_SleepSendsItsFrame : ∀ p ∈ [0, 1, 2], (Instr.sleep = .sleep ∨ Instr.sleep = .wireSleep) ∧
    (mid .sleep .framing .sleep p .clear).op = .sleep ∧ (mid .sleep .framing .sleep p .clear).phase = .framing ∧
    (mid .sleep .framing .sleep p .clear).frame = .sleep ∧ (mid .sleep .framing .sleep p .clear).pos = p := by decide

/-- A full buffer at the end of the array: the first and the last data byte, and the last event. -/
def fullPage (op : Op) (p : Phase) (f : WireOp) (pos : Nat) : State :=
  { mid op p f pos .verified with addr := 31744, len := 1024 }

theorem test_witness_WriteSendsItsFrame : ∀ p ∈ [0, 1, 2, 3, 4, 1027, 1028],
    (fullPage .write .framing .write p).op = .write ∧ (fullPage .write .framing .write p).phase = .framing ∧
    (fullPage .write .framing .write p).frame = .write ∧ (fullPage .write .framing .write p).pos = p ∧
    (fullPage .write .framing .write p).len.toNat = 1024 ∧ (mid .write .framing .write 4 .verified).len.toNat = 0 := by decide

theorem test_witness_ReadSendsItsFrame : ∀ p ∈ [0, 1, 2, 3, 4, 1027, 1028],
    (fullPage .read .reading .read p).op = .read ∧ (fullPage .read .reading .read p).phase = .reading ∧
    (fullPage .read .reading .read p).frame = .read ∧ (fullPage .read .reading .read p).pos = p ∧
    (fullPage .read .reading .read p).len.toNat = 1024 ∧ (mid .read .reading .read 4 .clear).len.toNat = 0 := by decide

theorem test_witness_RdidSendsItsFrame : ∀ p ∈ [0, 1, 2, 5, 6],
    (mid .rdid .identifying .rdid p .clear).op = .rdid ∧ (mid .rdid .identifying .rdid p .clear).phase = .identifying ∧
    (mid .rdid .identifying .rdid p .clear).frame = .rdid ∧ (mid .rdid .identifying .rdid p .clear).pos = p ∧
    (mid .rdid .identifying .rdid p .clear).cfg.idLen.toNat = 4 := by decide

theorem test_witness_WritePageVerifiesOnce :
    ((mid .writePage .writeEnabling .wren 2 .clear).op = .writePage ∧
      (mid .writePage .writeEnabling .wren 2 .clear).phase = .writeEnabling ∧
      (mid .writePage .writeEnabling .wren 2 .clear).frame = .wren ∧
      (mid .writePage .writeEnabling .wren 2 .clear).pos = 2) ∧
    (∀ sr ∈ [(0x00 : Byte), 0xFD, 0x02, 0xFF],
      ({ mid .writePage .writeEnabling .rdsr 3 .requested with lastSr := sr } : State).op = .writePage ∧
      ({ mid .writePage .writeEnabling .rdsr 3 .requested with lastSr := sr } : State).phase = .writeEnabling ∧
      ({ mid .writePage .writeEnabling .rdsr 3 .requested with lastSr := sr } : State).frame = .rdsr ∧
      ({ mid .writePage .writeEnabling .rdsr 3 .requested with lastSr := sr } : State).pos = 3 ∧
      ({ mid .writePage .writeEnabling .rdsr 3 .requested with lastSr := sr } : State).lastSr = sr) := by decide

theorem test_witness_WritePageWritesThenWaits :
    ((mid .writePage .writeEnableVerified .rdsr 0 .verified).op = .writePage ∧
      (mid .writePage .writeEnableVerified .rdsr 0 .verified).phase = .writeEnableVerified) ∧
    ((fullPage .writePage .writing .write 1028).op = .writePage ∧ (fullPage .writePage .writing .write 1028).phase = .writing ∧
      (fullPage .writePage .writing .write 1028).frame = .write ∧
      (fullPage .writePage .writing .write 1028).pos = 4 + (fullPage .writePage .writing .write 1028).len.toNat ∧
      (fullPage .writePage .writing .write 1028).cfg.pollEn = true) ∧
    (mid .writePage .settling .write 0 .clear).phase = .settling := by decide

theorem test_witness_WritePageSendsItsFrames :
    (Instr.wireWren = .writePage ∨ Instr.wireWren = (mid .writePage .writeEnabling .wren 1 .clear).frame.instr) ∧
    ((mid .writePage .writeEnabling .rdsr 2 .requested).phase = .writeEnabling ∧
      (mid .writePage .writeEnabling .rdsr 2 .requested).frame = .rdsr ∧
      (mid .writePage .writeEnabling .rdsr 2 .requested).pos = 2) ∧
    ((fullPage .writePage .writing .write 1027).phase = .writing ∧ (fullPage .writePage .writing .write 1027).frame = .write ∧
      (fullPage .writePage .writing .write 1027).pos < 4 + (fullPage .writePage .writing .write 1027).len.toNat) := by decide

-- R95: POLL_MAX = 0 allows one poll, POLL_MAX = 0xFF allows 256.
theorem test_witness_PollerIsBounded :
    ({ mid .writePage .polling .rdsr 3 .clear with lastSr := 0x02, k := 256 } : State).k.toNat = Cfg.reset.pollMax.toNat + 1 ∧
    ({ mid .writePage .polling .rdsr 3 .clear with lastSr := 0x02, k := 255 } : State).k.toNat ≠ Cfg.reset.pollMax.toNat + 1 ∧
    (∀ p ∈ [2, 3], (mid .writePage .polling .rdsr p .clear).op = .writePage ∧
      (mid .writePage .polling .rdsr p .clear).phase = .polling ∧ (mid .writePage .polling .rdsr p .clear).frame = .rdsr ∧
      (mid .writePage .polling .rdsr p .clear).wel = .clear ∧ (mid .writePage .polling .rdsr p .clear).pos = p) := by decide

theorem test_witness_InstructionsStopOffTheirPosition : Instr.wireRead.wire? = some .read ∧
    (mid .read .reading .read 0 .clear).phase.framed = true ∧ (mid .read .reading .read 0 .clear).frame = .read ∧
    (mid .rdsr .framing .rdsr 0 .clear).frame ≠ .read ∧ (mid .read .waking .read 0 .clear).phase ≠ .idle := by decide

/-- The statements about every instruction, or every instruction past acceptance. -/
theorem test_witness_frames_of_instructions : (∃ t, exec .wireRead (mid .read .reading .read 2 .clear) = .next t) ∧
    (mid .read .reading .read 2 .clear).phase ≠ .idle ∧
    (∀ j, frameEvent .read (mid .read .reading .read 2 .clear) 2 ≠ .recv j) ∧
    frameEvent .read (fullPage .read .reading .read 1027) 1027 = .recv 1023 ∧
    (∃ t, exec .wireRdsr (mid .rdsr .framing .rdsr 1 .clear) = .next t) :=
  ⟨⟨_, rfl⟩, by decide, fun j => by rw [frameEvent_send _ _ (by decide) (by decide)]; simp, by decide, _, rfl⟩

/-- A reference device with its latch set, in the middle of a WRITE frame with one data byte. -/
def refWriting : RefDevice :=
  { RefDevice.powerUp [] 0x02 (Vector.replicate 16 0) with sr := 0x02, cmd := some .write, pos := 4, a := 5, data := [0x77] }

-- R52: the data byte lands at its address and WEL clears when the frame ends.
theorem test_reference_write : (refWriting.csUp).arr = [(5, 0x77)] ∧ (refWriting.csUp).sr = 0x00 := by decide

theorem test_witness_ArrayFrame : ∃ t,
    exec .wireWrite { mid .write .framing .write 5 .verified with len := 1, device := .reference refWriting } = .next t ∧
      t.device = .reference refWriting.csUp := ⟨_, rfl, rfl⟩

/-- A reference device at the end of frame `cmd`, its status `sr`, with two data bytes received for address 32767. -/
def refEnding (cmd : Option WireOp) (sr : Byte) : RefDevice :=
  { refWriting with sr := sr, cmd := cmd, pos := 5, a := 32767, data := [0x8C, 0x77] }

-- R52: the address wraps: data byte 0 lands at 32767 and data byte 1 at 0; block protection (0x8C) is not the array's.
theorem test_reference_write_wraps : (refEnding (some .write) 0x02).csUp.arr = [(0, 0x77), (32767, 0x8C)] := by decide

-- R52 on frames of the opcode alone, as SLEEP sends under a colliding SLEEP_OPCODE: the row still clears WEL.
def refOpcodeOnly (cmd : WireOp) (sr : Byte) : RefDevice := { refWriting with sr := sr, cmd := some cmd, pos := 1, a := 0, data := [] }
theorem test_reference_write_alone : (refOpcodeOnly .write 0x8E).csUp.sr = 0x8C ∧ (refOpcodeOnly .write 0x8E).csUp.arr = [] := by
  decide
theorem test_reference_wrsr_alone : (refOpcodeOnly .wrsr 0x02).csUp.sr.getLsbD 1 = false := by
  simp [refOpcodeOnly, refWriting, RefDevice.csUp, RefDevice.effect, RefDevice.powerUp, setWel, welBit]

theorem test_witness_ReferenceDeviceEndsFrames : (∀ f : Option WireOp, ∀ sr ∈ [(0x00 : Byte), 0x02],
      (refEnding f sr).ignoring = false ∧ (refEnding f sr).cmd = f) ∧
    ((refEnding (some .wrsr) 0x02).data = 0x8C :: [0x77] ∧ (refEnding (some .wrsr) 0x02).sr.getLsbD 1 = true ∧
      (refEnding (some .wrsr) 0x00).sr.getLsbD 1 = false) ∧
    ((refEnding (some .write) 0x02).data.length ≤ 32768 ∧ 1 < (refEnding (some .write) 0x02).data.length ∧
      (refEnding (some .write) 0x02).sr.getLsbD 1 = true ∧ (refEnding (some .write) 0x00).sr.getLsbD 1 = false) ∧
    (∀ j, j < (refEnding (some .write) 0x02).data.length → 1 ≠ ((refEnding (some .write) 0x02).a.toNat + j) % 32768) ∧
    (∀ f ∈ [WireOp.wrsr, .write], (refOpcodeOnly f 0x02).ignoring = false ∧ (refOpcodeOnly f 0x02).cmd = some f ∧
      (refOpcodeOnly f 0x02).data = [] ∧ (refOpcodeOnly f 0x02).sr.getLsbD 1 = true) :=
  ⟨fun f sr _ => ⟨rfl, rfl⟩, by decide, by decide, by decide, by decide⟩

theorem test_witness_StatusBytesMayBeAnything : (mid .rdsr .framing .rdsr 2 .clear).phase.framed = true ∧
    (mid .rdsr .framing .rdsr 2 .clear).frame = .rdsr ∧ (mid .rdsr .framing .rdsr 2 .clear).pos = 2 := by decide

/-- Every command but the raw WRITE, ready from power-on. -/
theorem test_witness_whole_commands (o : Op) (h : o ≠ .write) : (quietState o true []).Inv ∧ (quietState o true []).Ready o :=
  ⟨quiet_inv _ _ _, ⟨rfl, rfl, rfl, rfl, fun _ => rfl, fun e => absurd e h⟩⟩

/-- The raw WRITE is ready once the latch is verified. -/
theorem test_witness_whole_write :
    ({ quietState .write true [] with wel := .verified, wakeNeeded := false } : State).Inv ∧
    ({ quietState .write true [] with wel := .verified, wakeNeeded := false } : State).Ready .write :=
  ⟨by constructor <;> simp [quietState, State.reset, phaseOwned, State.positionOK, State.wakeOK, State.welOK, State.pollsOK,
      State.rangeGuard, Device.wf],
    ⟨rfl, rfl, rfl, rfl, fun _ => rfl, fun _ => rfl⟩⟩

-- R111, R112: a power cycle of the block loses its registers and keeps the device; R50: the device's own keeps the array.
theorem test_power_on : (blockPowerOn { full with device := .reference refWriting }).addr = 0 ∧
    (blockPowerOn { full with device := .reference refWriting }).wrbuf = [] ∧
    (blockPowerOn { full with device := .reference refWriting }).device = .reference refWriting := by decide
theorem test_device_power_up : ((refWriting.csUp).powerCycle 0xFF false).arr = [(5, 0x77)] ∧
    ((refWriting.csUp).powerCycle 0xFF false).sr = 0xFC := by decide

theorem test_witness_PowerCyclesKeepTheArray :
    (quietState .illegal false [.powerOn]).schedule = .powerOn :: [] ∧
    (quietState .illegal false [.powerOn]).isOpen = false ∧
    ({ mid .write .framing .write 3 .verified with schedule := [.powerOn] } : State).isOpen = true ∧
    (quietState .illegal false [.devicePowerUp]).device = .oracle [] ∧
    ({ quietState .illegal false [.devicePowerUp] with device := .reference refWriting } : State).schedule =
      .devicePowerUp :: [] := by decide

theorem test_witness_ReferenceDeviceStaysCoherent :
    Reachable { State.reset with schedule := [], device := .reference refWriting } := .start _ _ (by constructor <;> decide)

theorem test_witness_WritePageThenReadGivesTheData :
    ({ quietState .writePage true [] with device := .reference refWriting } : State).Inv ∧
    ({ quietState .writePage true [] with device := .reference refWriting } : State).Ready .writePage ∧
    (refWriting.asleep = true → (quietState .writePage true []).wakeNeeded = true) :=
  ⟨by constructor <;> simp [quietState, State.reset, phaseOwned, State.positionOK, State.wakeOK, State.welOK, State.pollsOK,
      State.rangeGuard, Device.wf, refWriting, RefDevice.powerUp],
    ⟨rfl, rfl, rfl, rfl, fun _ => rfl, fun h => by cases h⟩, fun _ => rfl⟩

end Sys2Proof.Tests
end

section
/-! What the sequencer's step and every step can do, and the invariant kept by each (10_state.md R11, R27, R32, R35). -/

namespace Sys2Proof.Machine

/-! ### The sequencer's step -/

theorem step_sequencer_cons {s : State} {rest : List Turn} (hb : s.busy = true) (hs : s.schedule = .sequencer :: rest) :
    step s = exec s.op.instr { s with schedule := rest } := by
  simp [step, fetch, fetchLatched, hs, hb]

/-- Where a frame is in progress, the command that owns it runs its next event (R27). -/
theorem exec_latched_framed {s : State} (ho : phaseOwned s.op s.phase s.frame) (hf : s.phase.framed = true) :
    exec s.op.instr s = .next (frameStep s.frame s) := by
  have single : ∀ {op : Op} {p : Phase} {f : WireOp}, s.op = op → s.phase = p → s.frame = f → p.framed = true →
      exec op.instr s = runCommand op (beginBody p f) (singleFrame p f) s →
      exec s.op.instr s = .next (frameStep s.frame s) := by
    intro op p f hop hp hfr hpf e
    rw [hop, e, hfr]
    exact runCommand_single op p f s hp hpf hfr
  have other : ∀ {p : Phase}, p.framed = false → s.phase ≠ p := by
    rintro p hp rfl
    simp [hp] at hf
  have page : s.op = .writePage → exec s.op.instr s = writePageBody s := by
    intro hop
    rw [hop]
    exact exec_writePage_body s (other rfl) (other rfl) (other rfl)
  cases hp : s.phase <;> simp only [hp, Phase.framed, Bool.false_eq_true] at hf <;> simp only [hp, phaseOwned] at ho
  case framing =>
    rcases ho with ⟨hfr, hop⟩ | ⟨hfr, hop⟩ | ⟨hfr, hop⟩ | ⟨hfr, hop⟩ | ⟨hfr, hop⟩ | ⟨hfr, hop⟩ <;>
      exact single hop hp hfr rfl rfl
  case reading => exact single ho.2 hp ho.1 rfl rfl
  case identifying => exact single ho.2 hp ho.1 rfl rfl
  case writeEnabling =>
    obtain ⟨hfr | hfr, hop⟩ := ho <;> simp [page hop, writePageBody, hp, hfr, runFrame, Phase.framed]
  case writing => simp [page ho.2, writePageBody, hp, ho.1, runFrame, Phase.framed]
  case polling => simp [page ho.2, writePageBody, hp, ho.1, runFrame, Phase.framed]

/-- What the sequencer's step of the running command does: it validates, it wakes the device, it makes an event of the
frame in progress, or it makes one of WRITE_PAGE's two steps between frames (R11, R27). -/
inductive SequencerStep (s t : State) : Prop where
  | validate (hp : s.phase = .accepted) (e : t = validate s.op (startOf s.op) s)
  | wake (hp : s.phase = .waking) (ho : s.op ≠ .illegal) (e : t = wakeStep (startOf s.op) s)
  | frame (hf : s.phase.framed = true) (e : t = frameStep s.frame s)
  | beginWrite (hp : s.phase = .writeEnableVerified) (e : t = frameStep .write (beginBody .writing .write s))
  | settle (hp : s.phase = .settling) (e : t = complete .ok (busWait .settle s))

theorem sequencerStep_of_exec {s t : State} (hp : s.phase ≠ .idle) (h : exec s.op.instr s = .next t) :
    SequencerStep s t := by
  have latched : ∀ {o : Op}, s.op.instr.op? = some o → o = s.op := by
    intro o ho
    rw [Op.op?_instr] at ho
    exact (Option.some.inj ho).symm
  rcases exec_cases h with ⟨o, -, hi, -⟩ | ⟨o, ho, ha, e⟩ | ⟨o, ho, hi, hw, e⟩ | ⟨hf, e⟩ | ⟨-, hv, e⟩ | ⟨-, hs, e⟩
  · exact absurd hi hp
  · exact .validate ha (latched ho ▸ e)
  · exact .wake hw (latched ho ▸ hi) (latched ho ▸ e)
  · exact .frame hf e
  · exact .beginWrite hv e
  · exact .settle hs e

/-! ### Every step -/

/-- Whose turn a step takes, and what it makes of the state that is left when the turn is taken off the schedule: one
case per kind of turn (R45, D36). -/
inductive TurnTaken (s t : State) (rest : List Turn) : Prop where
  | sequencer (hq : s.sequencerTurn) (hb : s.busy = true) (m : SequencerStep { s with schedule := rest } t)
  | restful (hq : s.sequencerTurn) (hb : s.busy = false) (e : t = { s with schedule := rest })
  | command (k : BitVec 10) (w : Word) (hs : s.schedule = .host (.write k w) :: rest) (hk : k.toNat = 0)
      (e : t = commandWrite (decodeOp w) { s with schedule := rest })
  | write (k : BitVec 10) (w : Word) (hs : s.schedule = .host (.write k w) :: rest) (hk : k.toNat ≠ 0)
      (e : t = hostWrite k w { s with schedule := rest })
  | read (k : BitVec 10) (hs : s.schedule = .host (.read k) :: rest)
      (e : t = { s with schedule := rest, hrdata := hostRead k { s with schedule := rest } })
  | waitIdle (hs : s.schedule = .waitIdle :: rest) (e : t = hostWaitIdle { s with schedule := rest })
  | reset (hs : s.schedule = .reset :: rest) (e : t = blockReset { s with schedule := rest })
  | powerOn (hs : s.schedule = .powerOn :: rest) (e : t = blockPowerOn { s with schedule := rest })
  | devicePowerUp (hs : s.schedule = .devicePowerUp :: rest) (e : t = devicePowerUp { s with schedule := rest })

/-- Everything a step can do in a state that meets the invariant. -/
theorem step_cases {s t : State} (h : s.Inv) (hs : step s = .next t) : ∃ rest, TurnTaken s t rest := by
  have latched : ∀ rest, s.sequencerTurn →
      (s.busy = true → step s = exec s.op.instr { s with schedule := rest }) →
      (s.busy = false → step s = .next { s with schedule := rest }) → TurnTaken s t rest := by
    intro rest hq hrun hidle
    cases hb : s.busy with
    | true => exact .sequencer hq hb (sequencerStep_of_exec (h.busy_running.1 hb) ((hrun hb).symm.trans hs))
    | false => exact .restful hq hb (Host.Outcome.next.inj (hs.symm.trans (hidle hb)))
  cases hq : s.schedule with
  | nil =>
    have e : ({ s with schedule := [] } : State) = s := by rw [← hq]
    refine ⟨[], latched [] (.inl hq) (fun hb => ?_) fun hb => ?_⟩ <;> rw [e]
    · exact step_sequencer hb hq
    · simp [step, fetch, fetchLatched, hq, hb]
  | cons turn rest =>
    refine ⟨rest, ?_⟩
    have quiet : ∀ {u : State}, fetch s = .quiet u → t = u := by
      intro u e
      simpa [step, e, eq_comm] using hs
    cases turn with
    | sequencer =>
      exact latched rest (.inr ⟨rest, hq⟩) (fun hb => step_sequencer_cons hb hq)
        fun hb => by simp [step, fetch, fetchLatched, hq, hb]
    | host a =>
      cases a with
      | read k => exact .read k hq (quiet (by simp [fetch, hq, hostAccess]))
      | write k w =>
        by_cases hk : k.toNat = 0
        · exact .command k w hq hk (Host.Outcome.next.inj (hs.symm.trans (step_cmdWrite hq hk (idle_of h))))
        · exact .write k w hq hk (quiet (by simp [fetch, hq, hk]))
    | waitIdle => exact .waitIdle hq (quiet (by simp [fetch, hq]))
    | reset => exact .reset hq (quiet (by simp [fetch, hq]))
    | powerOn => exact .powerOn hq (quiet (by simp [fetch, hq]))
    | devicePowerUp => exact .devicePowerUp hq (quiet (by simp [fetch, hq]))

/-! ### The invariant -/

/-- Power-on meets the invariant, whatever the host's turns and the device. -/
theorem inv_start (turns : List Turn) (d : Device) (hd : d.wf) :
    ({ State.reset with schedule := turns, device := d } : State).Inv := by
  constructor
  case device_wf => exact hd
  all_goals simp [State.reset, phaseOwned, State.positionOK, State.wakeOK, State.welOK, State.pollsOK, State.rangeGuard]

/-- A wait is a trace event, and the trace is outside the invariant. -/
theorem inv_busWait {s : State} (h : s.Inv) (kind : WaitKind) : (busWait kind s).Inv := by
  obtain ⟨a1, a2, a3, a4, a5, a6, a7, a8, a9, a10, a11, a12, a13, a14, a15, a16⟩ := h
  constructor <;> assumption

/-- WRITE_PAGE past its verification may enter its WRITE frame: the latch is verified there (R81, R93). -/
theorem inv_beginWrite {s : State} (h : s.Inv) (hp : s.phase = .writeEnableVerified) :
    (beginBody .writing .write s).Inv := by
  obtain ⟨a1, a2, a3, a4, a5, a6, a7, a8, a9, a10, a11, a12, a13, a14, a15, a16⟩ := h
  constructor <;> simp_all [phaseOwned, State.positionOK, State.wakeOK, State.welOK, State.pollsOK, State.rangeGuard,
    State.rangeOK, frameEvents]

theorem inv_hostWaitIdle {s : State} (h : s.Inv) : (hostWaitIdle s).Inv := inv_schedule (inv_hrdata h s.status) _

theorem inv_sequencerStep {s t : State} (h : s.Inv) (m : SequencerStep s t) : t.Inv := by
  cases m with
  | validate hp e => exact e ▸ inv_validate h hp
  | wake hp _ e => exact e ▸ inv_wake h hp
  | frame hf e => exact e ▸ inv_frameStep h hf
  | beginWrite hp e => exact e ▸ inv_frameStep (inv_beginWrite h hp) rfl
  | settle hp e =>
    have ho : s.isOpen = false := by simpa [State.positionOK, hp] using h.position
    exact e ▸ inv_complete (inv_busWait h .settle) ho .ok

theorem inv_step {s t : State} (h : s.Inv) (hs : step s = .next t) : t.Inv := by
  obtain ⟨rest, turn⟩ := step_cases h hs
  have hu := inv_schedule h rest
  cases turn with
  | sequencer _ _ m => exact inv_sequencerStep hu m
  | restful _ _ e => exact e ▸ hu
  | command _ w _ _ e => exact e ▸ inv_commandWrite hu (decodeOp w)
  | write k w _ _ e => exact e ▸ inv_hostWrite hu k w
  | read k _ e => exact e ▸ inv_hrdata hu _
  | waitIdle _ e => exact e ▸ inv_hostWaitIdle hu
  | reset _ e => exact e ▸ inv_blockReset hu
  | powerOn _ e => exact e ▸ inv_blockPowerOn hu
  | devicePowerUp _ e => exact e ▸ inv_devicePowerUp hu

theorem Reachable.inv {s : State} (h : Reachable s) : s.Inv := by
  induction h with
  | start turns d hd => exact inv_start turns d hd
  | step _ hs ih => exact inv_step ih hs

theorem busy_of_framed {s : State} (h : s.Inv) (hf : s.phase.framed = true) : s.busy = true :=
  h.busy_running.2 fun hp => by simp [hp, Phase.framed] at hf

/-- Settles O14, by the kind of turn the step takes. -/
theorem stepKeepsInvariant : Obligations.StepKeepsInvariant := fun _ _ => inv_step

/-- Settles O13: the case of an oracle without scripted answers and a silent host. -/
theorem powerOnMeetsInvariant : Obligations.PowerOnMeetsInvariant := inv_start [] (.oracle []) trivial

/-- Settles O15: the first five fields of the invariant, which every reachable state meets. -/
theorem reachableStatesAreCoherent : Obligations.ReachableStatesAreCoherent := by
  intro s hr
  have h := hr.inv
  refine ⟨?_, ?_, h.open_busy, h.asleep_clear, h.done_idle⟩
  · rw [← Bool.not_eq_true, h.busy_running, not_ne_iff]
  · simp [h.cs_open]

/-- Settles O6. -/
theorem stepRunsTheLatchedCommand : Obligations.StepRunsTheLatchedCommand :=
  fun _ hb => ⟨step_sequencer hb, fun _ => step_sequencer_cons hb⟩

/-- Settles O7: where a frame is in progress, its own row and the command that owns it make the same event. -/
theorem stepRunsTheFrameInProgress : Obligations.StepRunsTheFrameInProgress := by
  intro s h hf
  have hb := busy_of_framed h hf
  have row : ∀ l, exec s.op.instr { s with schedule := l } = exec s.frame.instr { s with schedule := l } := by
    intro l
    rw [exec_wire, runFrame_next s.frame { s with schedule := l } hf rfl]
    exact exec_latched_framed (s := { s with schedule := l }) h.owned hf
  refine ⟨fun hs => ?_, fun rest hs => ?_⟩
  · rw [step_sequencer hb hs]
    exact row s.schedule
  · rw [step_sequencer_cons hb hs]
    exact row rest

end Sys2Proof.Machine
end

section
/-! What each instruction leaves unchanged, the bytes of RDBUF, what a reset leaves, and the ways each flag changes
(10_state.md R22, R23, R34). -/

namespace Sys2Proof.Machine

/-! ### The operations in two shapes: a completion, or a move to another phase and frame -/

/-- Every command but ILLEGAL enters its body with `beginBody`. -/
theorem startOf_eq {o : Op} (ho : o ≠ .illegal) (s : State) :
    startOf o s = beginBody (bodyStart o).1 (bodyStart o).2 s := by
  cases o <;> first | rfl | exact absurd rfl ho

/-- Validation completes the command, or moves on to the wake pulse or the body (R77). -/
theorem validate_complete_or_begin (o : Op) (s : State) :
    (∃ c, validate o (startOf o) s = complete c s) ∨ ∃ p f, validate o (startOf o) s = beginBody p f s := by
  unfold validate
  split_ifs with hi _ _ hw
  · exact .inl ⟨_, rfl⟩
  · exact .inl ⟨_, rfl⟩
  · exact .inl ⟨_, rfl⟩
  · exact .inr ⟨.waking, s.frame, rfl⟩
  · exact .inr ⟨_, _, startOf_eq hi s⟩

/-- The three steps of the wake pulse (R89). -/
theorem wakeStep_cases {o : Op} (ho : o ≠ .illegal) (s : State) :
    (s.pos = 0 ∧ wakeStep (startOf o) s = { csAssert s with pos := 1 }) ∨
    (s.pos = 1 ∧ wakeStep (startOf o) s = { csDeassert s with pos := 2 }) ∨
    (2 ≤ s.pos ∧ ∃ p f, wakeStep (startOf o) s = beginBody p f { busWait .wake s with wakeNeeded := false }) := by
  unfold wakeStep
  split_ifs with h0 h1
  · exact .inl ⟨h0, rfl⟩
  · exact .inr (.inl ⟨h1, rfl⟩)
  · exact .inr (.inr ⟨by omega, _, _, startOf_eq ho _⟩)

/-- A frame's end completes the command, or moves WRITE_PAGE on (R80, R93). -/
theorem frameEnd_complete_or_begin (f : WireOp) {s : State} (h0 : s.pos = 0) :
    (∃ c, frameEnd f s = complete c s) ∨ ∃ p g, frameEnd f s = beginBody p g s := by
  have move : ∀ p g, ({ s with phase := p, frame := g } : State) = beginBody p g s := by
    intro p g
    rw [beginBody, ← h0]
  unfold frameEnd writePageNext
  repeat' split
  all_goals first | exact .inl ⟨_, rfl⟩ | exact .inr ⟨_, _, move _ _⟩ | exact .inr ⟨_, _, rfl⟩

/-- The first event of WRITE_PAGE's WRITE frame. -/
theorem beginWrite_eq (s : State) :
    frameStep .write (beginBody .writing .write s) = { csAssert (beginBody .writing .write s) with pos := 1 } :=
  frameStep_csAssert _ _ rfl

/-- The three outcomes of `CommandWrite` (R76). -/
theorem commandWrite_cases (o : Op) (s : State) :
    (s.misuse = true ∧ commandWrite o s = s) ∨
    (s.misuse = false ∧ s.busy = true ∧ commandWrite o s = { s with misuse := true }) ∨
    (s.misuse = false ∧ s.busy = false ∧ commandWrite o s = accept o s) := by
  unfold commandWrite
  split_ifs with hm hb
  · exact .inl ⟨hm, rfl⟩
  · exact .inr (.inl ⟨by simpa using hm, hb, rfl⟩)
  · exact .inr (.inr ⟨by simpa using hm, by simpa using hb, rfl⟩)

/-! ### What an instruction keeps -/

theorem commandWrite_sameOperands (o : Op) (s : State) : SameOperands s (commandWrite o s) := by
  rcases commandWrite_cases o s with ⟨-, e⟩ | ⟨-, -, e⟩ | ⟨-, -, e⟩ <;> rw [e] <;> constructor <;> rfl

theorem validate_sameOperands (o : Op) (s : State) :
    SameOperands s (validate o (startOf o) s) ∧ (validate o (startOf o) s).op = s.op ∧
    (validate o (startOf o) s).misuse = s.misuse := by
  rcases validate_complete_or_begin o s with ⟨c, e⟩ | ⟨p, f, e⟩ <;> rw [e] <;> refine ⟨?_, rfl, rfl⟩ <;>
    constructor <;> rfl

theorem wakeStep_sameOperands {o : Op} (ho : o ≠ .illegal) (s : State) :
    SameOperands s (wakeStep (startOf o) s) ∧ (wakeStep (startOf o) s).op = s.op ∧
    (wakeStep (startOf o) s).misuse = s.misuse := by
  rcases wakeStep_cases ho s with ⟨-, e⟩ | ⟨-, e⟩ | ⟨-, p, f, e⟩ <;> rw [e] <;> refine ⟨?_, rfl, rfl⟩ <;>
    constructor <;> rfl

/-- Settles O45, by what the instruction does at its position. -/
theorem instructionsKeepTheHostsRegisters : Obligations.InstructionsKeepTheHostsRegisters := by
  intro i s t h
  rcases exec_cases h with ⟨o, -, hp, rfl⟩ | ⟨o, -, -, rfl⟩ | ⟨o, -, ho, -, rfl⟩ | ⟨-, rfl⟩ | ⟨-, -, rfl⟩ | ⟨-, -, rfl⟩
  · exact ⟨commandWrite_sameOperands o s, fun hn => absurd hp hn⟩
  · exact (validate_sameOperands o s).imp_right fun k _ => k
  · exact (wakeStep_sameOperands ho s).imp_right fun k _ => k
  · exact (frameStep_sameOperands s.frame s).imp_right fun k _ => k
  · rw [beginWrite_eq]
    exact ⟨by constructor <;> rfl, fun _ => ⟨rfl, rfl⟩⟩
  · exact ⟨by constructor <;> rfl, fun _ => ⟨rfl, rfl⟩⟩

/-! ### RDBUF -/

theorem rdByte_congr {s t : State} (hb : t.rdbuf = s.rdbuf) (hp : t.powerOns = s.powerOns) (x : Nat) :
    t.rdByte x = s.rdByte x := by
  simp [State.rdByte, hb, hp]

/-- One event of a frame stores the byte it receives, of a READ or RDID frame, and no other byte of RDBUF (R22, R90,
R91). -/
theorem frameStep_rdByte (f : WireOp) (s : State) (x : Nat) :
    (frameStep f s).rdByte x =
      if (f = .read ∨ f = .rdid) ∧ frameEvent f s s.pos = .recv x ∧ x < 1024 then s.misoByte else s.rdByte x := by
  cases he : frameEvent f s s.pos with
  | csAssert => simp [frameStep, he, State.rdByte]
  | send o => simp [frameStep, he, State.rdByte]
  | recv j =>
    simp only [frameStep, he, State.rdByte, keepByte_rdbuf, keepByte_powerOns, xferRecv_rdbuf, xferRecv_powerOns,
      FrameEvent.recv.injEq]
    by_cases hf : f = .read ∨ f = .rdid
    · simp only [hf, if_true, true_and, Buffer.read_put, Config.bufferSize, eq_comm (a := x)]
      grind
    · simp [hf]
  | csDeassert =>
    obtain ⟨-, -, -, -, -, hb, -, -, -, -, -, -, -, -, -, -, -, -, -, -, -, -, hp⟩ :=
      frameEnd_kept f (closeFrame f (csDeassert s))
    simpa [frameStep, he] using rdByte_congr (s := s) hb hp x

/-- Settles O46: outside a frame's events no instruction touches RDBUF, and none counts a power-on. -/
theorem readBufferFrame : Obligations.ReadBufferFrame := by
  intro i s t h x
  have kept : ∀ {p : Phase}, s.phase = p → p.framed = false → t.rdbuf = s.rdbuf → t.rdByte x =
      if s.phase.framed = true ∧ (s.frame = .read ∨ s.frame = .rdid) ∧ frameEvent s.frame s s.pos = .recv x ∧ x < 1024
      then s.misoByte else s.rdByte x := by
    intro p hp hf hb
    simpa [hp, hf] using rdByte_congr hb (instructionsKeepTheHostsRegisters i s t h).1.powerOns x
  rcases exec_cases h with
    ⟨o, -, hp, rfl⟩ | ⟨o, -, hp, rfl⟩ | ⟨o, -, ho, hp, rfl⟩ | ⟨hf, rfl⟩ | ⟨-, hp, rfl⟩ | ⟨-, hp, rfl⟩
  · refine kept hp rfl ?_
    rcases commandWrite_cases o s with ⟨-, e⟩ | ⟨-, -, e⟩ | ⟨-, -, e⟩ <;> simp [e]
  · refine kept hp rfl ?_
    rcases validate_complete_or_begin o s with ⟨c, e⟩ | ⟨p, f, e⟩ <;> simp [e]
  · refine kept hp rfl ?_
    rcases wakeStep_cases ho s with ⟨-, e⟩ | ⟨-, e⟩ | ⟨-, p, f, e⟩ <;> simp [e]
  · simpa [hf] using frameStep_rdByte s.frame s x
  · exact kept hp rfl (by simp [beginWrite_eq])
  · exact kept hp rfl rfl

/-! ### Reset -/

/-- What the register map reads after a reset or a power-on (R34). -/
theorem hostRead_after_reset {s t : State} (ht : t = blockReset s ∨ t = blockPowerOn s) :
    hostRead 1 t = 0x00000040 ∧ hostRead 2 t = 0 ∧ hostRead 3 t = 0 ∧ hostRead 4 t = 0xFF04FF01 ∧ hostRead 5 t = 0 ∧
    hostRead 6 t = 0 ∧ hostRead 7 t = 0 ∧ hostRead 0 t = 0 := by
  have cfg : Cfg.reset.word = 0xFF04FF01 := by decide
  have status : State.reset.status = 0x00000040 := by decide
  rcases ht with rfl | rfl <;> exact ⟨status, rfl, rfl, cfg, rfl, rfl, rfl, rfl⟩

theorem step_reset {s : State} {rest : List Turn} (hs : s.schedule = .reset :: rest) :
    step s = .next (blockReset { s with schedule := rest }) := by
  simp [step, fetch, hs]

theorem step_powerOn {s : State} {rest : List Turn} (hs : s.schedule = .powerOn :: rest) :
    step s = .next (blockPowerOn { s with schedule := rest }) := by
  simp [step, fetch, hs]

/-- Settles O10: a reset keeps the buffers, a power-on empties them, and `State.reset` is a fixed point of the reset. -/
theorem resetSetsEveryRegister : Obligations.ResetSetsEveryRegister := by
  refine ⟨fun s rest hs => ?_, ?_⟩
  · rcases hs with hs | hs
    · obtain ⟨r1, r2, r3, r4, r5, r6, r7, r0⟩ :=
        hostRead_after_reset (s := { s with schedule := rest }) (.inl rfl)
      exact ⟨_, step_reset hs, r1, r2, r3, r4, r5, r6, r7, r0, fun _ => ⟨rfl, rfl, fun _ => rfl, fun _ => rfl⟩,
        fun hp => by simp [hs] at hp, rfl, rfl, rfl, rfl, rfl, rfl, rfl, rfl, rfl, rfl, rfl, rfl, rfl⟩
    · obtain ⟨r1, r2, r3, r4, r5, r6, r7, r0⟩ :=
        hostRead_after_reset (s := { s with schedule := rest }) (.inr rfl)
      exact ⟨_, step_powerOn hs, r1, r2, r3, r4, r5, r6, r7, r0, fun hr => by simp [hs] at hr,
        fun _ => ⟨fun _ => rfl, fun _ => rfl⟩, rfl, rfl, rfl, rfl, rfl, rfl, rfl, rfl, rfl, rfl, rfl, rfl, rfl⟩
  · obtain ⟨r1, r2, r3, r4, r5, r6, r7, r0⟩ := hostRead_after_reset (s := State.reset) (t := State.reset) (.inl rfl)
    exact ⟨r1, r2, r3, r4, r5, r6, r7, r0, fun _ => ⟨rfl, rfl⟩, rfl, rfl, rfl, rfl, rfl, rfl, rfl⟩

/-! ### The flags -/

/-- The STATUS flags, WAKE_NEEDED, WEL_STATE, LAST_SR and POLL_COUNT of `t` are those of `s`. -/
structure FlagsKept (s t : State) : Prop where
  busy : t.busy = s.busy
  done : t.done = s.done
  result : t.result = s.result
  misuse : t.misuse = s.misuse
  wakeNeeded : t.wakeNeeded = s.wakeNeeded
  wel : t.wel = s.wel
  lastSr : t.lastSr = s.lastSr
  pollCount : t.pollCount = s.pollCount

/-- What a step of the sequencer may do to each flag, and where (R23). -/
structure SequencerFlags (s t : State) : Prop where
  status : (t.busy = s.busy ∧ t.done = s.done ∧ t.result = s.result) ∨ (t.busy = false ∧ t.done = true)
  misuse : t.misuse = s.misuse
  wakeNeeded : t.wakeNeeded = s.wakeNeeded ∨ (t.wakeNeeded = true ∧ s.closing ∧ s.frame = .sleep) ∨
    (t.wakeNeeded = false ∧ s.phase = .waking ∧ s.pos = 2)
  wel : t.wel = s.wel ∨ s.closing
  lastSr : t.lastSr = s.lastSr ∨ (s.phase.framed = true ∧ s.frame = .rdsr ∧ s.pos = 2)
  pollCount : t.pollCount = s.pollCount ∨ (s.phase = .polling ∧ s.pos = 2 ∧ t.pollCount = s.pollCount + 1)

theorem FlagsKept.sequencer {s t : State} (k : FlagsKept s t) : SequencerFlags s t :=
  ⟨.inl ⟨k.busy, k.done, k.result⟩, k.misuse, .inl k.wakeNeeded, .inl k.wel, .inl k.lastSr, .inl k.pollCount⟩

theorem sequencerFlags_complete {s u : State} (k : FlagsKept s u) (c : Result) : SequencerFlags s (complete c u) :=
  ⟨.inr ⟨rfl, rfl⟩, k.misuse, .inl k.wakeNeeded, .inl k.wel, .inl k.lastSr, .inl k.pollCount⟩

theorem pos_lt_frameEvents {s : State} (h : s.Inv) (hf : s.phase.framed = true) : s.pos < frameEvents s.frame s := by
  have hpos := h.position
  cases hp : s.phase <;> simp only [hp, Phase.framed, Bool.false_eq_true] at hf <;>
    simp only [State.positionOK, hp] at hpos <;> exact hpos.2

/-- The event past a frame's bytes is its last one. -/
theorem closing_of_lt {s : State} (h : s.Inv) (hf : s.phase.framed = true)
    (hp : outLen s.frame s + readLen s.frame s < s.pos) : s.closing := by
  have hlt := pos_lt_frameEvents h hf
  exact ⟨busy_of_framed h hf, hf, by simp only [frameEvents] at *; omega⟩

/-- The read phase of an RDSR frame is its third event, and a poll counts there (R85, R95). -/
theorem sequencerFlags_recv {s : State} (h : s.Inv) (hf : s.phase.framed = true) (h0 : outLen s.frame s < s.pos)
    (h1 : s.pos ≤ outLen s.frame s + readLen s.frame s) (j : Nat) :
    SequencerFlags s { keepByte s.frame j s.misoByte (xferRecv s) with pos := s.pos + 1 } := by
  have third : s.frame = .rdsr → s.pos = 2 := by
    intro hr
    simp only [hr, outLen, readLen] at h0 h1
    omega
  refine ⟨.inl (by simp), by simp, .inl (by simp), .inl (by simp), ?_, ?_⟩
  · by_cases hr : s.frame = .rdsr
    · exact .inr ⟨hf, hr, third hr⟩
    · exact .inl (by simp [keepByte_lastSr, hr])
  · by_cases hr : s.frame = .rdsr ∧ s.phase = .polling
    · exact .inr ⟨hr.2, third hr.1, by simp [keepByte_pollCount, hr, h.polls.1]⟩
    · exact .inl (by simp [keepByte_pollCount, hr])

/-- The last event of a frame moves the latch, sets WAKE_NEEDED after SLEEP, and completes the command or goes on. -/
theorem sequencerFlags_end {s : State} (hc : s.closing) :
    SequencerFlags s (frameEnd s.frame (closeFrame s.frame (csDeassert s))) := by
  have wake : (closeFrame s.frame (csDeassert s)).wakeNeeded = s.wakeNeeded ∨
      ((closeFrame s.frame (csDeassert s)).wakeNeeded = true ∧ s.closing ∧ s.frame = .sleep) := by
    by_cases hsl : s.frame = .sleep <;> simp [hsl, hc]
  rcases frameEnd_complete_or_begin s.frame (s := closeFrame s.frame (csDeassert s)) rfl with ⟨c, e⟩ | ⟨p, g, e⟩ <;>
    rw [e]
  · exact ⟨.inr ⟨rfl, rfl⟩, rfl, wake.imp_right .inl, .inr hc, .inl rfl, .inl rfl⟩
  · exact ⟨.inl ⟨rfl, rfl, rfl⟩, rfl, wake.imp_right .inl, .inr hc, .inl rfl, .inl rfl⟩

theorem sequencerFlags_frameStep {s : State} (h : s.Inv) (hf : s.phase.framed = true) :
    SequencerFlags s (frameStep s.frame s) := by
  rcases frameStep_cases s.frame s with ⟨-, e⟩ | ⟨-, -, e⟩ | ⟨h0, h1, e⟩ | ⟨hp, e⟩ <;> rw [e]
  · exact FlagsKept.sequencer (by constructor <;> rfl)
  · exact FlagsKept.sequencer (by constructor <;> rfl)
  · exact sequencerFlags_recv h hf h0 h1 _
  · exact sequencerFlags_end (closing_of_lt h hf hp)

/-- The wake pulse keeps every flag up to its third step, which clears WAKE_NEEDED (R89). -/
theorem sequencerFlags_wakeStep {s : State} (h : s.Inv) (hp : s.phase = .waking) (ho : s.op ≠ .illegal) :
    SequencerFlags s (wakeStep (startOf s.op) s) := by
  rcases wakeStep_cases ho s with ⟨-, e⟩ | ⟨-, e⟩ | ⟨h2, p, f, e⟩ <;> rw [e]
  · exact FlagsKept.sequencer (by constructor <;> rfl)
  · exact FlagsKept.sequencer (by constructor <;> rfl)
  · have hpos := h.position
    simp only [State.positionOK, hp] at hpos
    exact ⟨.inl ⟨rfl, rfl, rfl⟩, rfl, .inr (.inr ⟨rfl, hp, by omega⟩), .inl rfl, .inl rfl, .inl rfl⟩

theorem sequencerFlags_of_step {s t : State} (h : s.Inv) (m : SequencerStep s t) : SequencerFlags s t := by
  cases m with
  | validate hp e =>
    subst e
    rcases validate_complete_or_begin s.op s with ⟨c, e⟩ | ⟨p, f, e⟩ <;> rw [e]
    · exact sequencerFlags_complete (by constructor <;> rfl) c
    · exact FlagsKept.sequencer (by constructor <;> rfl)
  | wake hp ho e => exact e ▸ sequencerFlags_wakeStep h hp ho
  | frame hf e => exact e ▸ sequencerFlags_frameStep h hf
  | beginWrite hp e =>
    rw [e, beginWrite_eq]
    exact FlagsKept.sequencer (by constructor <;> rfl)
  | settle hp e => exact e ▸ sequencerFlags_complete (by constructor <;> rfl) .ok

/-- A host write outside CMD reaches no flag (R37). -/
theorem flagsKept_hostWrite {k : BitVec 10} (hk : k.toNat ≠ 0) (w : Word) (s : State) :
    FlagsKept s (hostWrite k w s) := by
  rw [hostWrite, if_neg hk]
  split_ifs <;> constructor <;> rfl

/-- The turns are no flag. -/
theorem FlagsKept.of_schedule {s t : State} {l : List Turn} (k : FlagsKept { s with schedule := l } t) : FlagsKept s t :=
  ⟨k.busy, k.done, k.result, k.misuse, k.wakeNeeded, k.wel, k.lastSr, k.pollCount⟩

theorem SequencerFlags.of_schedule {s t : State} {l : List Turn} (k : SequencerFlags { s with schedule := l } t) :
    SequencerFlags s t :=
  ⟨k.status, k.misuse, k.wakeNeeded, k.wel, k.lastSr, k.pollCount⟩

/-- The flags after any step but a reset: kept, moved by the sequencer, or moved by a CMD write (R23). -/
theorem step_flags {s t : State} (h : s.Inv) (hs : step s = .next t) (hr : ¬s.resetTurn) :
    FlagsKept s t ∨ (s.sequencerTurn ∧ s.busy = true ∧ SequencerFlags s t) ∨
    ∃ k w rest, k.toNat = 0 ∧ s.schedule = .host (.write k w) :: rest ∧
      ((s.busy = true ∧ t = { s with schedule := rest, misuse := true }) ∨
        (s.busy = false ∧ t = accept (decodeOp w) { s with schedule := rest })) := by
  obtain ⟨rest, turn⟩ := step_cases h hs
  cases turn with
  | sequencer hq hb m => exact .inr (.inl ⟨hq, hb, (sequencerFlags_of_step (inv_schedule h rest) m).of_schedule⟩)
  | command k w hq hk e =>
    rcases commandWrite_cases (decodeOp w) { s with schedule := rest } with
      ⟨-, e'⟩ | ⟨-, hb, e'⟩ | ⟨-, hb, e'⟩ <;> rw [e'] at e
    · exact .inl (by subst e; constructor <;> rfl)
    · exact .inr (.inr ⟨k, w, rest, hk, hq, .inl ⟨hb, e⟩⟩)
    · exact .inr (.inr ⟨k, w, rest, hk, hq, .inr ⟨hb, e⟩⟩)
  | write k w _ hk e => exact .inl (e ▸ flagsKept_hostWrite hk w _).of_schedule
  | reset hq _ => exact absurd ⟨rest, .inl hq⟩ hr
  | powerOn hq _ => exact absurd ⟨rest, .inr hq⟩ hr
  | devicePowerUp _ e => exact .inl (by subst e; constructor <;> simp)
  | restful _ _ e | read _ _ e | waitIdle _ e => exact .inl (by subst e; constructor <;> rfl)

/-- Settles O22, by the three ways a step can treat the flags. -/
theorem flagsChangeOnlyAsListed : Obligations.FlagsChangeOnlyAsListed := by
  intro s t h hs hr
  rcases step_flags h hs hr with kept | ⟨hq, hb, m⟩ | ⟨k, w, rest, hk, hq, ⟨hb, rfl⟩ | ⟨hb, rfl⟩⟩
  · obtain ⟨e1, e2, e3, e4, e5, e6, e7, e8⟩ := kept
    simp_all
  · have hd : s.done = false := by
      by_contra hd
      simp [h.done_idle (by simpa using hd)] at hb
    have status : (t.busy = true ∧ t.done = false ∧ t.result = s.result) ∨ (t.busy = false ∧ t.done = true) := by
      simpa [hb, hd] using m.status
    refine ⟨by simp [hb], fun _ ht => ⟨?_, hq⟩, fun hn => ?_, fun hn => ?_, fun hm => absurd m.misuse hm, fun h0 h1 => ?_,
      fun h1 h0 => ?_, fun hw => ⟨hq, m.wel.resolve_left hw⟩, fun hl => ⟨hq, m.lastSr.resolve_left hl⟩,
      fun hp => .inl ⟨hq, m.pollCount.resolve_left hp⟩⟩
    · rcases status with ⟨e, -⟩ | ⟨-, e⟩ <;> simp_all
    · rcases status with ⟨-, e, -⟩ | ⟨e, -⟩ <;> simp_all
    · rcases status with ⟨-, -, e⟩ | ⟨e, -⟩ <;> simp_all
    · rcases m.wakeNeeded with e | ⟨-, hc⟩ | ⟨e, -⟩
      · simp [e, h0] at h1
      · exact ⟨hq, hc⟩
      · simp [e] at h1
    · rcases m.wakeNeeded with e | ⟨e, -⟩ | ⟨-, hw⟩
      · simp [e, h1] at h0
      · simp [e] at h0
      · exact ⟨hq, hw⟩
  · exact ⟨by simp [hb], by simp [hb], by simp, by simp, fun _ => ⟨rfl, hb, k, w, rest, hk, hq⟩, by simp_all,
      by simp_all, by simp, by simp, by simp⟩
  · exact ⟨fun _ _ => ⟨rfl, rfl, rfl, rfl, k, w, rest, hk, hq, rfl⟩, by simp [hb], by simp [hb], by simp [hb], by simp,
      by simp_all, by simp_all, by simp, by simp, fun _ => .inr ⟨hb, rfl, rfl⟩⟩

end Sys2Proof.Machine
end

section
/-! The words the host moves through the register map (20_memory.md R37, R38): the fields of STATUS and CFG bit by bit,
the four bytes of a buffer word, and what a read and a write do at every index. -/

namespace Sys2Proof.Machine

/-! ### The fields of a word -/

/-- A field of a word is `f` where its bits are. -/
theorem extractLsb'_eq_of_bits {w n start : Nat} {v : BitVec w} {f : BitVec n}
    (h : ∀ i, i < n → v.getLsbD (start + i) = f.getLsbD i) : v.extractLsb' start n = f := by
  refine BitVec.eq_of_getLsbD_eq fun i hi => ?_
  simpa [hi] using h i hi

/-- The layout of STATUS (R14). -/
theorem status_getLsbD (s : State) (i : Nat) :
    s.status.getLsbD i =
      if i = 0 then s.busy
      else if i = 1 then s.done
      else if i < 5 then s.result.code.getLsbD (i - 2)
      else if i = 5 then s.misuse
      else if i = 6 then s.wakeNeeded
      else if i < 9 then s.wel.code.getLsbD (i - 7)
      else false := by
  show ((0 : BitVec 23) ++ s.wel.code ++ BitVec.ofBool s.wakeNeeded ++ BitVec.ofBool s.misuse ++ s.result.code ++
    BitVec.ofBool s.done ++ BitVec.ofBool s.busy).getLsbD i = _
  simp only [BitVec.getLsbD_append, BitVec.getLsbD_ofBool, BitVec.ofNat_eq_ofNat, BitVec.getLsbD_zero]
  grind

/-- The fields of STATUS wider than a bit. -/
theorem status_fields (s : State) :
    s.status.extractLsb' 2 3 = s.result.code ∧ s.status.extractLsb' 7 2 = s.wel.code ∧
    s.status.extractLsb' 9 23 = 0 := by
  refine ⟨?_, ?_, ?_⟩ <;> refine extractLsb'_eq_of_bits fun i hi => ?_ <;> rw [status_getLsbD] <;> grind

/-- The layout of CFG (R17). -/
theorem cfgWord_getLsbD (c : Cfg) (i : Nat) :
    c.word.getLsbD i =
      if i = 0 then c.pollEn
      else if i < 8 then false
      else if i < 16 then c.pollMax.getLsbD (i - 8)
      else if i < 20 then c.idLen.getLsbD (i - 16)
      else if i < 24 then false
      else c.clkDiv.getLsbD (i - 24) := by
  show (c.clkDiv ++ (0 : BitVec 4) ++ c.idLen ++ c.pollMax ++ (0 : BitVec 7) ++ BitVec.ofBool c.pollEn).getLsbD i = _
  simp only [BitVec.getLsbD_append, BitVec.getLsbD_ofBool, BitVec.ofNat_eq_ofNat, BitVec.getLsbD_zero]
  grind

/-- The fields of CFG wider than a bit, the reserved ones among them. -/
theorem cfgWord_fields (c : Cfg) :
    c.word.extractLsb' 1 7 = 0 ∧ c.word.extractLsb' 8 8 = c.pollMax ∧ c.word.extractLsb' 16 4 = c.idLen ∧
    c.word.extractLsb' 20 4 = 0 ∧ c.word.extractLsb' 24 8 = c.clkDiv := by
  refine ⟨?_, ?_, ?_, ?_, ?_⟩ <;> refine extractLsb'_eq_of_bits fun i hi => ?_ <;> rw [cfgWord_getLsbD] <;> grind

/-! ### Little-endian words -/

/-- The layout of `{b3, b2, b1, b0}` (R7). -/
theorem word32_getLsbD (b3 b2 b1 b0 : Byte) (i : Nat) :
    (word32 b3 b2 b1 b0).getLsbD i =
      if i < 8 then b0.getLsbD i
      else if i < 16 then b1.getLsbD (i - 8)
      else if i < 24 then b2.getLsbD (i - 16)
      else b3.getLsbD (i - 24) := by
  show (b3 ++ b2 ++ b1 ++ b0).getLsbD i = _
  simp only [BitVec.getLsbD_append]
  grind

theorem word32_byte (b : Nat → Byte) {j : Nat} (hj : j < 4) :
    (word32 (b 3) (b 2) (b 1) (b 0)).extractLsb' (8 * j) 8 = b j := by
  refine extractLsb'_eq_of_bits fun i hi => ?_
  rw [word32_getLsbD]
  interval_cases j <;> grind

/-- A word is put together again from its own bytes. -/
theorem word32_extract (w : Word) :
    word32 (w.extractLsb' 24 8) (w.extractLsb' 16 8) (w.extractLsb' 8 8) (w.extractLsb' 0 8) = w := by
  refine BitVec.eq_of_getLsbD_eq fun i hi => ?_
  simp only [word32_getLsbD, BitVec.getLsbD_extractLsb']
  grind

theorem wrWord_byte (s : State) (k : Nat) {j : Nat} (hj : j < 4) :
    (s.wrWord k).extractLsb' (8 * j) 8 = s.wrByte (4 * k + j) := by
  simpa [State.wrWord] using word32_byte (fun j => s.wrByte (4 * k + j)) hj

theorem rdWord_byte (s : State) (k : Nat) {j : Nat} (hj : j < 4) :
    (s.rdWord k).extractLsb' (8 * j) 8 = s.rdByte (4 * k + j) := by
  simpa [State.rdWord] using word32_byte (fun j => s.rdByte (4 * k + j)) hj

/-- The bytes of WRBUF once a word is stored in its window (R38). -/
theorem wrByte_putWord {k : Nat} (hk : k < 256) (w : Word) (s : State) (x : Nat) :
    ({ s with wrbuf := Buffer.putWord s.wrbuf k w } : State).wrByte x =
      if x = 4 * k then w.extractLsb' 0 8
      else if x = 4 * k + 1 then w.extractLsb' 8 8
      else if x = 4 * k + 2 then w.extractLsb' 16 8
      else if x = 4 * k + 3 then w.extractLsb' 24 8
      else s.wrByte x :=
  Buffer.read_putWord _ s.wrbuf k hk w x

/-! ### The register map -/

theorem step_hostRead {s : State} {k : BitVec 10} {rest : List Turn} (hs : s.schedule = .host (.read k) :: rest) :
    step s = .next { s with schedule := rest, hrdata := hostRead k s } := by
  simp only [step, fetch, hs]
  rfl

theorem hostRead_wrbuf {k : BitVec 10} (h : 256 ≤ k.toNat ∧ k.toNat < 512) (s : State) :
    hostRead k s = s.wrWord (k.toNat - 256) := by
  simp (disch := omega) only [hostRead, if_neg, if_pos]

theorem hostRead_rdbuf {k : BitVec 10} (h : 512 ≤ k.toNat ∧ k.toNat < 768) (s : State) :
    hostRead k s = s.rdWord (k.toNat - 512) := by
  simp (disch := omega) only [hostRead, if_neg, if_pos]

theorem hostRead_reserved {k : BitVec 10} (h : 8 ≤ k.toNat ∧ k.toNat < 256 ∨ 768 ≤ k.toNat) (s : State) :
    hostRead k s = 0 := by
  simp (disch := omega) only [hostRead, if_neg]

/-- Settles O25, index by index: the fields of STATUS and CFG, the registers narrower than a word, and the two windows. -/
theorem hostReadsFollowTheMap : Obligations.HostReadsFollowTheMap := by
  intro s k rest hs
  obtain ⟨result, latch, high⟩ := status_fields s
  obtain ⟨low, pollMax, idLen, mid, clkDiv⟩ := cfgWord_fields s.cfg
  have status : k.toNat = 1 → hostRead k s = s.status := fun hk => by simp [hostRead, hk]
  have cfg : k.toNat = 4 → hostRead k s = s.cfg.word := fun hk => by simp [hostRead, hk]
  have zext : ∀ {n : Nat}, n ≤ 32 → ∀ v : BitVec n, (v.setWidth 32).toNat = v.toNat :=
    fun hn _ => BitVec.toNat_setWidth_of_le hn
  refine ⟨hostRead k s, step_hostRead hs, fun hk => ?_, fun hk => ?_, fun hk => ?_, fun hk => ?_, fun hk => ?_,
    fun hk => ?_, fun hk => ?_, fun hk => ?_, fun hk => hostRead_reserved hk s, fun hk b hb => ?_, fun hk b hb => ?_⟩
  · simp [hostRead, hk]
  · rw [status hk]
    simp only [status_getLsbD, result, latch, high]
    simp +contextual [Result.code, Wel.code]
  · simp [hostRead, hk]
  · simpa [hostRead, hk] using zext (by decide) s.len
  · rw [cfg hk]
    exact ⟨(cfgWord_getLsbD s.cfg 0).trans (if_pos rfl), low, pollMax, idLen, mid, clkDiv⟩
  · simpa [hostRead, hk] using zext (by decide) s.wrsrData
  · simpa [hostRead, hk] using zext (by decide) s.lastSr
  · simpa [hostRead, hk] using zext (by decide) s.pollCount
  · rw [hostRead_wrbuf hk]
    exact wrWord_byte s _ hb
  · rw [hostRead_rdbuf hk]
    exact rdWord_byte s _ hb

/-- Settles O26, by the branch of `HostWrite` that each index selects. -/
theorem hostWritesFollowTheMap : Obligations.HostWritesFollowTheMap := by
  intro s k w rest hs h0
  rw [step_hostWrite hs h0]
  refine ⟨fun hb => ?_, fun hb => ⟨fun hk => ?_, fun hk => ?_, fun hk => ?_, fun hk => ?_, fun hk => ?_, fun hk => ?_⟩⟩
  · simp [hostWrite, h0, hb]
  · simp [hostWrite, hk, hb]
  · simp [hostWrite, hk, hb]
  · simp [hostWrite, hk, hb, Cfg.ofWord]
  · simp [hostWrite, hk, hb]
  · simp (disch := omega) only [hostWrite, hb, if_neg, Bool.false_eq_true, if_false]
  · simp (disch := omega) only [hostWrite, hb, if_neg, if_pos, Bool.false_eq_true, if_false]

/-- Settles O27: `Buffer.putWord` stores the word's four bytes, and a read puts the four bytes of its index together. -/
theorem bufferWindowsAreLittleEndian : Obligations.BufferWindowsAreLittleEndian := by
  have index : ∀ {base k : Nat}, base + k < 1024 → (BitVec.ofNat 10 (base + k)).toNat = base + k :=
    fun h => Nat.mod_eq_of_lt h
  refine ⟨fun s k w hk hb => ?_, fun s k hk => ?_⟩
  · have hi := index (base := 256) (k := k) (by omega)
    obtain ⟨-, -, -, -, -, window⟩ := (hostWritesFollowTheMap
      { s with schedule := [.host (.write (BitVec.ofNat 10 (256 + k)) w)] } _ w [] rfl (by omega)).2 hb
    rw [hi, Nat.add_sub_cancel_left] at window
    have bytes := wrByte_putWord hk w { s with schedule := [] }
    refine ⟨_, window (by omega), (bytes _).trans (by simp), (bytes _).trans (by simp), (bytes _).trans (by simp),
      (bytes _).trans (by simp), fun j hj => (bytes j).trans ?_, fun _ => rfl, ?_⟩
    · rw [if_neg (by omega), if_neg (by omega), if_neg (by omega), if_neg (by omega)]
      rfl
    · rw [hostRead_wrbuf (by omega), hi, Nat.add_sub_cancel_left, State.wrWord]
      simp [bytes, word32_extract]
  · rw [hostRead_rdbuf (by rw [index (by omega)]; omega), index (by omega), Nat.add_sub_cancel_left]
    rfl

end Sys2Proof.Machine
end

section
/-! The device on the far side of the bus (20_memory.md R49 to R53): what its status register, array and sleep flag are
after CS↑, what each instruction lets it see, its power cycles, and the status bytes it may answer. -/

namespace Sys2Proof.Machine

/-! ### CS↑ on the reference device -/

theorem setWel_getLsbD (sr : Byte) (v : Bool) (b : Nat) :
    (setWel sr v).getLsbD b = if b = 1 then v else sr.getLsbD b := by
  by_cases hb : b < 8
  · cases v <;> simp only [setWel] <;> interval_cases b <;> simp
  · have high : ∀ x : Byte, x.getLsbD b = false := fun x => BitVec.getLsbD_of_ge x b (by omega)
    rw [high, high, if_neg (by omega)]

/-- Bits 7:2 of the status register are above WEL. -/
theorem setWel_protection (sr : Byte) (v : Bool) : (setWel sr v).extractLsb' 2 6 = sr.extractLsb' 2 6 := by
  refine extractLsb'_eq_of_bits fun i hi => ?_
  rw [setWel_getLsbD, if_neg (by omega)]
  simp [hi]

theorem setProtection_protection (sr new : Byte) : (setProtection sr new).extractLsb' 2 6 = new.extractLsb' 2 6 := by
  refine BitVec.eq_of_getLsbD_eq fun i hi => ?_
  interval_cases i <;> simp [setProtection]

/-- CS↑ on a frame the device ignored changes nothing that outlives the frame (R51). -/
theorem RefDevice.csUp_ignored (r : RefDevice) (h : r.ignoring = true) :
    r.csUp.sr = r.sr ∧ r.csUp.arr = r.arr ∧ r.csUp.asleep = r.asleep ∧ r.csUp.id = r.id := by
  simp [RefDevice.csUp, h]

/-- CS↑ on a frame the device heard has the frame's effect (R52). -/
theorem RefDevice.csUp_heard (r : RefDevice) (h : r.ignoring = false) :
    r.csUp.sr = r.effect.sr ∧ r.csUp.arr = r.effect.arr ∧ r.csUp.asleep = r.effect.asleep ∧
    r.csUp.id = r.effect.id := by
  simp [RefDevice.csUp, h]

/-- Only a WRITE with WEL set changes the array. -/
theorem RefDevice.effect_arr (r : RefDevice) :
    r.effect.arr = if r.cmd = some .write ∧ welBit r.sr = true then storeBytes r.arr r.a.toNat r.data else r.arr := by
  cases hc : r.cmd with
  | none => simp [effect, hc]
  | some f =>
    cases f
    case wrsr | write => cases hw : welBit r.sr <;> simp [effect, hc, hw]
    all_goals simp [effect, hc]

/-- Only SLEEP puts the device to sleep, and nothing wakes it at CS↑. -/
theorem RefDevice.effect_asleep (r : RefDevice) :
    r.effect.asleep = if r.cmd = some .sleep then true else r.asleep := by
  cases hc : r.cmd with
  | none => simp [effect, hc]
  | some f =>
    cases f
    case wrsr | write => cases hw : welBit r.sr <;> simp [effect, hc, hw]
    all_goals simp [effect, hc]

theorem RefDevice.effect_id (r : RefDevice) : r.effect.id = r.id := by
  unfold effect
  repeat' split
  all_goals rfl

/-- Settles O52, row by row of R52. -/
theorem referenceDeviceEndsFrames : Obligations.ReferenceDeviceEndsFrames := by
  intro r hi
  obtain ⟨hsr, harr, hsleep, hid⟩ := r.csUp_heard hi
  have wel : ∀ sr v, (setWel sr v).getLsbD 1 = v := fun sr v => (setWel_getLsbD sr v 1).trans (if_pos rfl)
  have others : ∀ sr v b, b ≠ 1 → (setWel sr v).getLsbD b = sr.getLsbD b :=
    fun sr v b hb => (setWel_getLsbD sr v b).trans (if_neg hb)
  rw [hsr, harr, hsleep, hid, RefDevice.effect_arr, RefDevice.effect_asleep, RefDevice.effect_id]
  refine ⟨fun hc => ?_, fun hc => ?_, fun hc => ⟨fun hw => ?_, fun hw => ?_⟩, fun hc => ⟨fun hw => ?_, fun hw => ?_⟩,
    fun hc => ?_, fun hc => ?_, fun hc => by simp [hc], fun hc => by simp [hc], rfl⟩
  · rw [show r.effect.sr = setWel r.sr true by simp [RefDevice.effect, hc]]
    exact ⟨wel _ _, others _ _⟩
  · rw [show r.effect.sr = setWel r.sr false by simp [RefDevice.effect, hc]]
    exact ⟨wel _ _, others _ _⟩
  · have hw : welBit r.sr = false := hw
    simp [RefDevice.effect, hc, hw]
  · have hw : welBit r.sr = true := hw
    rw [show r.effect.sr = setWel (setProtection r.sr r.newStatus) false by simp [RefDevice.effect, hc, hw]]
    refine ⟨wel _ _, (setWel_bit0 _ _).trans (setProtection_bit0 _ _), fun new l hd => ?_⟩
    rw [setWel_protection, setProtection_protection, RefDevice.newStatus, hd]
  · have hw : welBit r.sr = false := hw
    simp [RefDevice.effect, hc, hw]
  · have hw : welBit r.sr = true := hw
    have stored : ∀ x, r.csUp.arrByte x = Memory.read Config.framContents (storeBytes r.arr r.a.toNat r.data) x := by
      intro x
      rw [RefDevice.arrByte, harr, RefDevice.effect_arr, if_pos ⟨hc, hw⟩]
    rw [show r.effect.sr = setWel r.sr false by simp [RefDevice.effect, hc, hw]]
    refine ⟨wel _ _, others _ _, fun hl j hj => ?_, fun x hx => ?_⟩
    · exact (stored _).trans (storeBytes_read_inside _ _ _ _ hl j hj)
    · exact (stored x).trans (storeBytes_read_outside _ _ _ _ x hx)
  · simp [RefDevice.effect, hc]
  · rcases hc with hc | hc | hc | hc <;> simp [RefDevice.effect, hc]

/-! ### What an instruction lets the device see -/

/-- A frame's last event raises chip-select, which the device sees, and WAKE_NEEDED is set after SLEEP alone (R69, R92). -/
theorem frameEnd_csUp (f : WireOp) (s : State) :
    (frameEnd f (closeFrame f (csDeassert s))).device = s.device.csUp ∧
    (frameEnd f (closeFrame f (csDeassert s))).trace = .csUp :: s.trace ∧
    (frameEnd f (closeFrame f (csDeassert s))).csN = true ∧
    (frameEnd f (closeFrame f (csDeassert s))).isOpen = false ∧
    (frameEnd f (closeFrame f (csDeassert s))).pos = 0 ∧
    (frameEnd f (closeFrame f (csDeassert s))).wakeNeeded = if f = .sleep then true else s.wakeNeeded := by
  rcases frameEnd_complete_or_begin f (s := closeFrame f (csDeassert s)) rfl with ⟨c, e⟩ | ⟨p, g, e⟩ <;> rw [e] <;>
    exact ⟨rfl, rfl, rfl, rfl, rfl, rfl⟩

/-- What the device sees of a step: nothing, chip-select falling, a byte, or chip-select rising. -/
inductive DeviceSees (s t : State) : Prop where
  | nothing (e : t.device = s.device)
  | csDown (e : t.device = s.device.csDown)
  | byte (o : Byte) (e : t.device = s.device.receive o)
  | csUp (e : t.device = s.device.csUp) (hc : t.csN = true) (ht : t.trace = .csUp :: s.trace)

theorem deviceSees_frameStep (f : WireOp) (s : State) : DeviceSees s (frameStep f s) := by
  rcases frameStep_cases f s with ⟨-, e⟩ | ⟨-, -, e⟩ | ⟨-, -, e⟩ | ⟨-, e⟩ <;> rw [e]
  · exact .csDown rfl
  · exact .byte _ rfl
  · exact .byte 0 (by simp)
  · obtain ⟨hd, ht, hc, -⟩ := frameEnd_csUp f s
    exact .csUp hd hc ht

theorem deviceSees_of_exec {i : Instr} {s t : State} (h : exec i s = .next t) : DeviceSees s t := by
  rcases exec_cases h with ⟨o, -, -, rfl⟩ | ⟨o, -, -, rfl⟩ | ⟨o, -, ho, -, rfl⟩ | ⟨-, rfl⟩ | ⟨-, -, rfl⟩ | ⟨-, -, rfl⟩
  · rcases commandWrite_cases o s with ⟨-, e⟩ | ⟨-, -, e⟩ | ⟨-, -, e⟩ <;> rw [e] <;> exact .nothing rfl
  · rcases validate_complete_or_begin o s with ⟨c, e⟩ | ⟨p, f, e⟩ <;> rw [e] <;> exact .nothing rfl
  · rcases wakeStep_cases ho s with ⟨-, e⟩ | ⟨-, e⟩ | ⟨-, p, f, e⟩ <;> rw [e]
    · exact .csDown rfl
    · exact .csUp rfl rfl rfl
    · exact .nothing rfl
  · exact deviceSees_frameStep s.frame s
  · rw [beginWrite_eq]
    exact .csDown rfl
  · exact .nothing rfl

/-! ### The array -/

/-- A byte that CS↑ changes is one a heard WRITE frame stores to. -/
theorem RefDevice.csUp_arrByte {r : RefDevice} {x : Nat} (h : r.csUp.arrByte x ≠ r.arrByte x) :
    r.cmd = some .write ∧ r.ignoring = false ∧ welBit r.sr = true ∧
    ∃ j, j < r.data.length ∧ x = (r.a.toNat + j) % 32768 := by
  have heard : r.ignoring = false := by
    refine Bool.eq_false_iff.2 fun hi => ?_
    obtain ⟨-, harr, -, -⟩ := r.csUp_ignored hi
    exact h (by rw [arrByte, harr, arrByte])
  obtain ⟨-, harr, -, -⟩ := r.csUp_heard heard
  have write : r.cmd = some .write ∧ welBit r.sr = true := by
    by_contra hw
    exact h (by rw [arrByte, harr, effect_arr, if_neg hw, arrByte])
  refine ⟨write.1, heard, write.2, ?_⟩
  by_contra hj
  refine h ?_
  rw [arrByte, harr, effect_arr, if_pos write]
  exact storeBytes_read_outside _ _ _ _ x fun j hl hx => hj ⟨j, hl, hx⟩

/-- Settles O47: of what the device can see, only CS↑ reaches the array. -/
theorem arrayFrame : Obligations.ArrayFrame := by
  intro i s t r hd h
  have kept : ∀ {r' : RefDevice} {P : Nat → Prop}, r'.arr = r.arr → ∀ x, r'.arrByte x ≠ r.arrByte x → P x :=
    fun ha x hx => absurd (by rw [RefDevice.arrByte, ha, RefDevice.arrByte]) hx
  cases deviceSees_of_exec h with
  | nothing e => exact ⟨r, e.trans hd, kept rfl⟩
  | csDown e => exact ⟨r.csDown, e.trans (congrArg Device.csDown hd), kept rfl⟩
  | byte o e =>
    refine ⟨_, e.trans (congrArg (Device.receive o) hd), kept ?_⟩
    split
    · rfl
    · exact r.receive_arr o
  | csUp e hc ht =>
    exact ⟨r.csUp, e.trans (congrArg Device.csUp hd), fun x hx => ⟨hc, ht, RefDevice.csUp_arrByte hx⟩⟩

/-! ### Power cycles and free answers -/

theorem step_devicePowerUp {s : State} {rest : List Turn} (hs : s.schedule = .devicePowerUp :: rest) :
    step s = .next (devicePowerUp { s with schedule := rest }) := by
  simp [step, fetch, hs]

/-- Settles O12: the block's power cycle shows the device at most a CS↑; the device's own is `RefDevice.powerCycle`. -/
theorem powerCyclesKeepTheArray : Obligations.PowerCyclesKeepTheArray := by
  refine ⟨fun s rest hs => ?_, fun s rest l hs hd => ?_, fun s rest r hs hd => ?_⟩
  · exact ⟨_, step_powerOn hs, rfl, fun ho => by simp [ho], fun ho => by simp [ho]⟩
  · rw [step_devicePowerUp hs, devicePowerUp_oracle (s := { s with schedule := rest }) hd]
  · rw [step_devicePowerUp hs, devicePowerUp_reference (s := { s with schedule := rest }) hd]
    obtain ⟨harr, hid, h0, h1, ha, hi⟩ := r.powerCycle_cases (Config.powerUpStatus s.draws) s.isOpen
    exact ⟨_, rfl, fun x => by rw [RefDevice.arrByte, harr, RefDevice.arrByte], hid, h1, h0, ha, hi⟩

/-- Settles O51: the oracle that scripts `b` next answers it, and the third event of an RDSR frame keeps it whole. -/
theorem statusBytesMayBeAnything : Obligations.StatusBytesMayBeAnything := by
  intro s b l hp hf h2
  have e := (exec_wire .rdsr { s with device := .oracle (b :: l) }).trans (runFrame_next .rdsr _ hp hf)
  rw [frameStep_recv .rdsr _ (by simp [outLen, h2]) (by simp [outLen, readLen, h2])] at e
  exact ⟨_, e, by simp [keepByte_lastSr, State.misoByte, Device.answer], by simp [Device.receive]⟩

end Sys2Proof.Machine
end

section
/-! The sleep flag of the reference device against WAKE_NEEDED in every reachable state (42_storage_interface.md R98).
A device sleeps only after CS↑ of a SLEEP frame it heard, so the invariant follows the opcode from the frame's first byte,
the only one the device reads as an opcode, to its last event, which sets WAKE_NEEDED. -/

namespace Sys2Proof.Machine

/-! ### What the device makes of each event -/

theorem Device.csDown_eq_reference {d : Device} {r' : RefDevice} (h : d.csDown = .reference r') :
    ∃ r, d = .reference r ∧ r' = r.csDown := by
  cases d with
  | oracle l => cases h
  | reference r => exact ⟨r, rfl, (Device.reference.inj h).symm⟩

theorem Device.csUp_eq_reference {d : Device} {r' : RefDevice} (h : d.csUp = .reference r') :
    ∃ r, d = .reference r ∧ r' = r.csUp := by
  cases d with
  | oracle l => cases h
  | reference r => exact ⟨r, rfl, (Device.reference.inj h).symm⟩

theorem Device.receive_eq_reference {d : Device} {o : Byte} {r' : RefDevice} (h : d.receive o = .reference r') :
    ∃ r, d = .reference r ∧ r' = if r.ignoring then r else r.receive o := by
  cases d with
  | oracle l => cases l <;> cases h
  | reference r => exact ⟨r, rfl, (Device.reference.inj h).symm⟩

/-- A device asleep after CS↑ slept before, or has just heard a SLEEP frame. -/
theorem RefDevice.csUp_asleep {r : RefDevice} (h : r.csUp.asleep = true) :
    r.asleep = true ∨ (r.ignoring = false ∧ r.cmd = some .sleep) := by
  cases hi : r.ignoring with
  | true =>
    obtain ⟨-, -, hsleep, -⟩ := r.csUp_ignored hi
    exact .inl (hsleep.symm.trans h)
  | false =>
    obtain ⟨-, -, hsleep, -⟩ := r.csUp_heard hi
    rw [hsleep, effect_asleep] at h
    split at h
    case isTrue hc => exact .inr ⟨rfl, hc⟩
    case isFalse => exact .inl h

theorem RefDevice.receive_asleep (r : RefDevice) (o : Byte) : (r.receive o).asleep = r.asleep := by
  unfold receive
  repeat' split
  all_goals rfl

theorem RefDevice.receive_pos (r : RefDevice) (o : Byte) : (r.receive o).pos = r.pos + 1 := by
  unfold receive
  repeat' split
  all_goals simp_all

/-- The first byte is the opcode. -/
theorem RefDevice.receive_cmd_first {r : RefDevice} (hp : r.pos = 0) (hc : r.cmd = none) (o : Byte) :
    (r.receive o).cmd = decodeWire o := by
  unfold receive
  rw [if_pos hp]
  cases decodeWire o with
  | none => exact hc
  | some f => rfl

/-- A later byte is no opcode. -/
theorem RefDevice.receive_cmd_later {r : RefDevice} (hp : r.pos ≠ 0) (o : Byte) : (r.receive o).cmd = r.cmd := by
  unfold receive
  rw [if_neg hp]
  repeat' split
  all_goals simp_all

/-- No other frame's opcode is read as SLEEP, whatever SLEEP_OPCODE is (R52, conflict C1). -/
theorem decodeWire_opcode_eq_sleep {f : WireOp} (h : decodeWire f.opcode = some .sleep) : f = .sleep := by
  cases f
  case sleep => rfl
  all_goals simp [WireOp.opcode, decodeWire] at h

/-! ### The invariant -/

/-- What the block knows of the sleep flag of the reference device `r`: it sleeps only while WAKE_NEEDED = 1 and the wake
pulse has not begun; and in an open frame that it hears, it has read no opcode before the first byte, and SLEEP only from a
SLEEP frame after it. -/
structure SleepTracked (s : State) (r : RefDevice) : Prop where
  asleep : r.asleep = true → s.wakeNeeded = true ∧ (s.phase = .waking → s.pos = 0)
  unaddressed : s.isOpen = true → r.ignoring = false → s.pos = 1 → r.cmd = none ∧ r.pos = 0
  addressed : s.isOpen = true → r.ignoring = false → 2 ≤ s.pos →
    r.pos ≠ 0 ∧ (r.cmd = some .sleep → s.frame = .sleep)

/-- `SleepTracked` of the device, where it is the reference device; an oracle has no sleep flag. -/
def State.TracksSleep (s : State) : Prop := ∀ r, s.device = .reference r → SleepTracked s r

/-- With chip-select high there is no opcode to follow. -/
theorem sleepTracked_closed {s : State} {r : RefDevice} (ho : s.isOpen = false)
    (ha : r.asleep = true → s.wakeNeeded = true ∧ (s.phase = .waking → s.pos = 0)) : SleepTracked s r :=
  ⟨ha, fun h => by simp [ho] at h, fun h => by simp [ho] at h⟩

/-- A step that touches neither the bus nor WAKE_NEEDED keeps the invariant. -/
theorem State.TracksSleep.of_same {s t : State} (k : s.TracksSleep) (hd : t.device = s.device)
    (hw : t.wakeNeeded = s.wakeNeeded) (hp : t.phase = s.phase ∨ t.phase = .accepted) (ho : t.isOpen = s.isOpen)
    (hpos : t.pos = s.pos) (hf : t.frame = s.frame) : t.TracksSleep := by
  intro r hr
  obtain ⟨asleep, unaddressed, addressed⟩ := k r (hd ▸ hr)
  refine ⟨fun ha => ?_, by rwa [ho, hpos], by rwa [ho, hpos, hf]⟩
  rw [hw, hpos]
  refine (asleep ha).imp_right fun hk hq => hk ?_
  rcases hp with hp | hp
  · exact hp.symm.trans hq
  · simp [hp] at hq

/-! ### The bus events -/

theorem tracksSleep_csDown {s t : State} (hd : t.device = s.device.csDown) (hp : t.pos = 1) : t.TracksSleep := by
  intro r' hr
  obtain ⟨r, -, rfl⟩ := Device.csDown_eq_reference (hd.symm.trans hr)
  exact ⟨fun ha => by simp [RefDevice.csDown] at ha, fun _ _ _ => ⟨rfl, rfl⟩, fun _ _ h2 => by omega⟩

/-- A byte on the bus: the device reads the frame's first as its opcode, and no other. -/
theorem tracksSleep_receive {s t : State} {o : Byte} (k : s.TracksSleep) (hd : t.device = s.device.receive o)
    (hw : t.wakeNeeded = s.wakeNeeded) (hq : t.phase ≠ .waking) (ho : t.isOpen = s.isOpen) (hp : t.pos = s.pos + 1)
    (hf : t.frame = s.frame) (h1 : 1 ≤ s.pos) (first : s.pos = 1 → o = s.frame.opcode) : t.TracksSleep := by
  intro r' hr
  obtain ⟨r, hs, rfl⟩ := Device.receive_eq_reference (hd.symm.trans hr)
  obtain ⟨asleep, unaddressed, addressed⟩ := k r hs
  refine ⟨fun ha => ⟨?_, fun h => absurd h hq⟩, fun _ _ h => by omega, fun hopen hi _ => ?_⟩
  · rw [hw]
    refine (asleep ?_).1
    split at ha
    · exact ha
    · rwa [RefDevice.receive_asleep] at ha
  · rw [ho] at hopen
    have heard : r.ignoring = false := by
      refine Bool.eq_false_iff.2 fun hn => ?_
      simp [hn] at hi
    rw [heard, if_neg Bool.false_ne_true, hf]
    refine ⟨by simp [RefDevice.receive_pos], fun hc => ?_⟩
    by_cases hs1 : s.pos = 1
    · obtain ⟨hcmd, hpos⟩ := unaddressed hopen heard hs1
      rw [RefDevice.receive_cmd_first hpos hcmd, first hs1] at hc
      exact decodeWire_opcode_eq_sleep hc
    · obtain ⟨hpos, hsleep⟩ := addressed hopen heard (by omega)
      exact hsleep (RefDevice.receive_cmd_later hpos o ▸ hc)

theorem open_of_framed {s : State} (h : s.Inv) (hf : s.phase.framed = true) (h1 : 1 ≤ s.pos) : s.isOpen = true := by
  have hpos := h.position
  cases hp : s.phase <;> simp only [hp, Phase.framed, Bool.false_eq_true] at hf <;>
    simp only [State.positionOK, hp] at hpos <;> exact hpos.1.2 h1

/-- The end of a frame: where the device falls asleep, the frame is SLEEP and sets WAKE_NEEDED. -/
theorem tracksSleep_frameEnd {s : State} (h : s.Inv) (k : s.TracksSleep) (hf : s.phase.framed = true)
    (h2 : 2 ≤ s.pos) : (frameEnd s.frame (closeFrame s.frame (csDeassert s))).TracksSleep := by
  intro r' hr
  obtain ⟨hd, -, -, ho, hp, hw⟩ := frameEnd_csUp s.frame s
  obtain ⟨r, hs, rfl⟩ := Device.csUp_eq_reference (hd.symm.trans hr)
  obtain ⟨asleep, -, addressed⟩ := k r hs
  refine sleepTracked_closed ho fun ha => ⟨?_, fun _ => hp⟩
  rw [hw]
  rcases RefDevice.csUp_asleep ha with ha | ⟨hi, hc⟩
  · simp [(asleep ha).1]
  · simp [(addressed (open_of_framed h hf (by omega)) hi h2).2 hc]

/-! ### Every step -/

theorem tracksSleep_frameStep {s : State} (h : s.Inv) (k : s.TracksSleep) (hf : s.phase.framed = true) :
    (frameStep s.frame s).TracksSleep := by
  have hq : s.phase ≠ .waking := fun hp => by simp [hp, Phase.framed] at hf
  have hl := outLen_pos s.frame s
  rcases frameStep_cases s.frame s with ⟨-, e⟩ | ⟨h1, -, e⟩ | ⟨h1, -, e⟩ | ⟨h1, e⟩ <;> rw [e]
  · exact tracksSleep_csDown (s := s) rfl rfl
  · exact tracksSleep_receive k rfl rfl hq rfl rfl rfl h1 fun hp => by simp [hp, outByte]
  · exact tracksSleep_receive (o := 0) k (by simp) (by simp) (by simpa using hq) (by simp) rfl (by simp) (by omega)
      (by omega)
  · exact tracksSleep_frameEnd h k hf (by omega)

/-- The wake pulse: CS↓ wakes the device, CS↑ ends a frame without an opcode, and then WAKE_NEEDED may clear (R51, R89). -/
theorem tracksSleep_wakeStep {s : State} (h : s.Inv) (k : s.TracksSleep) (hp : s.phase = .waking)
    (ho : s.op ≠ .illegal) : (wakeStep (startOf s.op) s).TracksSleep := by
  have hpos := h.position
  simp only [State.positionOK, hp] at hpos
  have awake : ∀ r, s.device = .reference r → s.pos ≠ 0 → r.asleep = true → False :=
    fun r hs h0 ha => h0 (((k r hs).asleep ha).2 hp)
  rcases wakeStep_cases ho s with ⟨-, e⟩ | ⟨h1, e⟩ | ⟨h2, p, f, e⟩ <;> rw [e]
  · exact tracksSleep_csDown (s := s) rfl rfl
  · intro r' hr
    obtain ⟨r, hs, rfl⟩ := Device.csUp_eq_reference hr
    refine sleepTracked_closed rfl fun ha => ?_
    rcases RefDevice.csUp_asleep ha with ha | ⟨hi, hc⟩
    · exact (awake r hs (by omega) ha).elim
    · simp [((k r hs).unaddressed (hpos.1.2 h1) hi h1).1] at hc
  · intro r hr
    have hopen : s.isOpen = false := by
      rw [← Bool.not_eq_true, hpos.1]
      omega
    exact sleepTracked_closed hopen fun ha => (awake r hr (by omega) ha).elim

theorem tracksSleep_sequencerStep {s t : State} (h : s.Inv) (k : s.TracksSleep) (m : SequencerStep s t) :
    t.TracksSleep := by
  cases m with
  | validate hp e =>
    have ho : s.isOpen = false := by simpa [State.positionOK, hp] using h.position
    subst e
    intro r hr
    rcases validate_complete_or_begin s.op s with ⟨c, e⟩ | ⟨p, f, e⟩ <;> rw [e] at hr ⊢
    · exact sleepTracked_closed ho fun ha => ⟨((k r hr).asleep ha).1, fun h => by cases h⟩
    · exact sleepTracked_closed ho fun ha => ⟨((k r hr).asleep ha).1, fun _ => rfl⟩
  | wake hp ho e => exact e ▸ tracksSleep_wakeStep h k hp ho
  | frame hf e => exact e ▸ tracksSleep_frameStep h k hf
  | beginWrite hp e =>
    rw [e, beginWrite_eq]
    exact tracksSleep_csDown (s := s) rfl rfl
  | settle hp e =>
    have ho : s.isOpen = false := by simpa [State.positionOK, hp] using h.position
    subst e
    exact fun r hr => sleepTracked_closed ho fun ha => ⟨((k r hr).asleep ha).1, fun h => by cases h⟩

/-- A device that was powered up is awake, and ignores what is left of an open frame (R50, log 21). -/
theorem tracksSleep_devicePowerUp {s : State} (k : s.TracksSleep) : (devicePowerUp s).TracksSleep := by
  cases hd : s.device with
  | oracle l => rwa [devicePowerUp_oracle hd]
  | reference r =>
    rw [devicePowerUp_reference hd]
    intro r' hr
    obtain rfl := Device.reference.inj hr
    have deaf : s.isOpen = true → (r.powerCycle (Config.powerUpStatus s.draws) s.isOpen).ignoring ≠ false := by
      intro ho
      simp [RefDevice.powerCycle, ho]
    exact ⟨fun ha => (by cases ha), fun ho hi => absurd hi (deaf ho), fun ho hi => absurd hi (deaf ho)⟩

theorem tracksSleep_step {s t : State} (h : s.Inv) (k : s.TracksSleep) (hs : step s = .next t) : t.TracksSleep := by
  obtain ⟨rest, turn⟩ := step_cases h hs
  have hk : ({ s with schedule := rest } : State).TracksSleep := k.of_same rfl rfl (.inl rfl) rfl rfl rfl
  cases turn with
  | sequencer _ _ m => exact tracksSleep_sequencerStep (inv_schedule h rest) hk m
  | restful _ _ e | read _ _ e | waitIdle _ e => exact e ▸ k.of_same rfl rfl (.inl rfl) rfl rfl rfl
  | command _ w _ _ e =>
    subst e
    rcases commandWrite_cases (decodeOp w) { s with schedule := rest } with ⟨-, e⟩ | ⟨-, -, e⟩ | ⟨-, -, e⟩ <;> rw [e]
    · exact hk
    · exact k.of_same rfl rfl (.inl rfl) rfl rfl rfl
    · exact k.of_same rfl rfl (.inr rfl) rfl rfl rfl
  | write j w _ hj e =>
    subst e
    rw [hostWrite, if_neg hj]
    split_ifs <;> exact k.of_same rfl rfl (.inl rfl) rfl rfl rfl
  | reset _ e | powerOn _ e =>
    subst e
    exact fun r _ => sleepTracked_closed rfl fun _ => ⟨rfl, fun h => by cases h⟩
  | devicePowerUp _ e => exact e ▸ tracksSleep_devicePowerUp hk

theorem Reachable.tracksSleep {s : State} (h : Reachable s) : s.TracksSleep := by
  induction h with
  | start turns d hd => exact fun r _ => sleepTracked_closed rfl fun _ => ⟨rfl, fun h => by cases h⟩
  | step hr hs ih => exact tracksSleep_step hr.inv ih hs

/-- Settles O53: the status bit and the array are in `State.Inv`, the sleep flag in `State.TracksSleep`. -/
theorem referenceDeviceStaysCoherent : Obligations.ReferenceDeviceStaysCoherent := by
  intro s r hr hd
  have hwf := hr.inv.device_wf
  rw [hd] at hwf
  exact ⟨hwf.2, hwf.1, fun ha => ((hr.tracksSleep r hd).asleep ha).1⟩

end Sys2Proof.Machine
end

section
/-! Completion against the effects of a command (20_memory.md R45). -/

namespace Sys2Proof.Machine

/-- The sequencer's step that completes a command receives no byte: RDBUF, LAST_SR and POLL_COUNT keep their values. -/
theorem sequencerStep_completes {s t : State} (m : SequencerStep s t) (hb : t.busy ≠ s.busy) :
    t.rdbuf = s.rdbuf ∧ t.lastSr = s.lastSr ∧ t.pollCount = s.pollCount := by
  cases m with
  | validate hp e =>
    subst e
    rcases validate_complete_or_begin s.op s with ⟨c, e⟩ | ⟨p, f, e⟩ <;> rw [e] <;> exact ⟨rfl, rfl, rfl⟩
  | wake hp ho e =>
    subst e
    rcases wakeStep_cases ho s with ⟨-, e⟩ | ⟨-, e⟩ | ⟨-, p, f, e⟩ <;> rw [e] <;> exact ⟨rfl, rfl, rfl⟩
  | frame hf e =>
    subst e
    rcases frameStep_cases s.frame s with ⟨-, e⟩ | ⟨-, -, e⟩ | ⟨-, -, e⟩ | ⟨-, e⟩ <;> rw [e] at hb ⊢
    · exact ⟨rfl, rfl, rfl⟩
    · exact ⟨rfl, rfl, rfl⟩
    · exact absurd (by simp) hb
    · obtain ⟨-, -, -, -, -, hr, -, -, -, -, hl, hp, -⟩ := frameEnd_kept s.frame (closeFrame s.frame (csDeassert s))
      exact ⟨hr, hl, hp⟩
  | beginWrite hp e =>
    rw [e, beginWrite_eq]
    exact ⟨rfl, rfl, rfl⟩
  | settle hp e => exact e ▸ ⟨rfl, rfl, rfl⟩

/-- A step is the sequencer's of a running command, or it leaves RDBUF alone and completes no command. -/
theorem step_sequencer_or_rdbuf_kept {s t : State} (h : s.Inv) (hs : step s = .next t) (hr : ¬s.resetTurn) :
    (s.busy = true ∧ ∃ rest, SequencerStep { s with schedule := rest } t) ∨
    (t.rdbuf = s.rdbuf ∧ (s.busy = true → t.busy = true)) := by
  obtain ⟨rest, turn⟩ := step_cases h hs
  cases turn with
  | sequencer _ hb m => exact .inl ⟨hb, rest, m⟩
  | restful _ _ e | read _ _ e | waitIdle _ e => exact .inr (e ▸ ⟨rfl, id⟩)
  | command k w _ _ e =>
    subst e
    rcases commandWrite_cases (decodeOp w) { s with schedule := rest } with ⟨-, e⟩ | ⟨-, -, e⟩ | ⟨-, -, e⟩ <;> rw [e]
    · exact .inr ⟨rfl, id⟩
    · exact .inr ⟨rfl, id⟩
    · exact .inr ⟨rfl, fun _ => rfl⟩
  | write k w _ hk e =>
    subst e
    rw [hostWrite, if_neg hk]
    split_ifs <;> exact .inr ⟨rfl, id⟩
  | reset hq _ => exact absurd ⟨rest, .inl hq⟩ hr
  | powerOn hq _ => exact absurd ⟨rest, .inr hq⟩ hr
  | devicePowerUp _ e => exact .inr (by simp [e])

/-- Settles O58: a completing step is the sequencer's; with no command running, a step keeps the flags or accepts. -/
theorem completionComesAfterItsEffects : Obligations.CompletionComesAfterItsEffects := by
  intro s t h hs hr
  refine ⟨fun hb ht => ?_, fun hb => ?_⟩
  · rcases step_sequencer_or_rdbuf_kept h hs hr with ⟨-, rest, m⟩ | ⟨-, hk⟩
    · exact sequencerStep_completes (s := { s with schedule := rest }) m (by simp [hb, ht])
    · simp [hk hb] at ht
  · have hbuf : t.rdbuf = s.rdbuf := by
      rcases step_sequencer_or_rdbuf_kept h hs hr with ⟨hb', -⟩ | ⟨e, -⟩
      · simp [hb] at hb'
      · exact e
    refine ⟨hbuf, ?_⟩
    rcases step_flags h hs hr with kept | ⟨-, hb', -⟩ | ⟨k, w, rest, -, -, ⟨hb', -⟩ | ⟨-, e⟩⟩
    · exact ⟨kept.lastSr, kept.wakeNeeded, kept.wel, fun _ => ⟨kept.pollCount, kept.done, kept.result⟩,
        fun ht => by simp [kept.busy, hb] at ht⟩
    · simp [hb] at hb'
    · simp [hb] at hb'
    · subst e
      exact ⟨rfl, rfl, rfl, fun ht => by simp at ht, fun _ => rfl⟩

end Sys2Proof.Machine
end

section
/-! The two decoders and the encoder undo each other, what a loaded code word runs, and the commands that carry no address
(30_encoding.md R54 to R60). -/

namespace Sys2Proof

/-! ### Command words -/

/-- The reserved words by their two fields (R58, R59). -/
theorem reservedWord_iff (w : Word) :
    reservedWord w = true ↔ cmdRsvd w ≠ 0 ∨ (cmdOp w).toNat = 0 ∨ 10 ≤ (cmdOp w).toNat := by
  have fields : reservedWord w =
      (cmdRsvd w != 0 || !(decide (1 ≤ (cmdOp w).toNat) && decide ((cmdOp w).toNat ≤ 9))) := rfl
  simp only [fields, Bool.or_eq_true, bne_iff_ne, Bool.not_eq_true', Bool.and_eq_false_iff, decide_eq_false_iff_not]
  exact or_congr_right (by omega)

/-- Where RSVD is zero the word is `zext_32(OP)` (R57). -/
theorem word_eq_of_fields {w : Word} {n : Nat} (h0 : cmdRsvd w = 0) (hn : (cmdOp w).toNat = n) :
    w = BitVec.ofNat 32 n := by
  have hw : w.toNat = n := by simpa [h0, hn] using word_split w
  rw [← hw, BitVec.ofNat_toNat, BitVec.setWidth_eq]

/-- The words that are not reserved are the nine command words (R57). -/
theorem word_of_not_reserved {w : Word} (h : reservedWord w = false) : ∃ n, 1 ≤ n ∧ n ≤ 9 ∧ w = BitVec.ofNat 32 n := by
  rw [← Bool.not_eq_true, reservedWord_iff] at h
  push Not at h
  obtain ⟨h0, h1, h9⟩ := h
  exact ⟨_, by omega, by omega, word_eq_of_fields h0 rfl⟩

/-- Encoding what `Decode(w)` gives restores the whole word, and only a reserved word gives ILLEGAL (R57 to R59). -/
theorem encode_decodeCommand (w : Word) : (decodeCommand w).wf = true ∧ encode (decodeCommand w) = .cmd w := by
  cases h : reservedWord w with
  | true =>
    rw [decodeCommand_reserved w h]
    exact ⟨h, rfl⟩
  | false =>
    obtain ⟨n, h1, h9, rfl⟩ := word_of_not_reserved h
    interval_cases n <;> exact ⟨rfl, rfl⟩

/-! ### Frames -/

theorem encode_frame (f : WireOp) : f.instr.wf = true ∧ encode f.instr = .wire f.opcode := by
  cases f <;> exact ⟨rfl, rfl⟩

/-- A first byte selects a frame only by being its opcode (R55, R56). -/
theorem opcode_of_decodeWire {b : Byte} {f : WireOp} (h : decodeWire b = some f) : f.opcode = b := by
  unfold decodeWire at h
  split at h
  case h_8 =>
    split_ifs at h with hb
    cases h
    exact hb.symm
  all_goals
    cases h
    exact BitVec.eq_of_toNat_eq (Eq.symm ‹_›)

/-! ### Round trips -/

/-- Settles O2: the words of all but two instructions are fixed and compute; ILLEGAL needs its word reserved, and the
SLEEP frame an opcode of its own. -/
theorem decodeInvertsEncode : Obligations.DecodeInvertsEncode := by
  intro i
  cases i
  case illegal w => exact Laws.EncodeDecode.illegal w
  case wireSleep => exact Laws.EncodeDecode.wireSleep
  all_goals exact fun _ _ => rfl

/-- Settles O3, one encoding at a time. -/
theorem encodeInvertsDecode : Obligations.EncodeInvertsDecode := by
  intro c i h
  cases c with
  | cmd w =>
    cases h
    exact encode_decodeCommand w
  | wire b =>
    cases hb : decodeWire b with
    | none => simp [decode, hb] at h
    | some f =>
      obtain rfl : f.instr = i := by simpa [decode, hb] using h
      rw [← opcode_of_decodeWire hb]
      exact encode_frame f

/-- Settles O1: a reserved word decodes to ILLEGAL, and with RSVD zero the word is one of nine numerals. -/
theorem commandWordsDecodeAsTheSpecSays : Obligations.CommandWordsDecodeAsTheSpecSays := by
  intro w
  have reserved : reservedWord w = true → decodeCommand w = .illegal w ∧ decodeOp w = .illegal := by
    intro h
    simp [decodeOp, decodeCommand_reserved w h, Instr.op?]
  refine ⟨fun h => reserved ((reservedWord_iff w).2 (.inl h)), fun h0 => ?_⟩
  refine ⟨?_, ?_, ?_, ?_, ?_, ?_, ?_, ?_, ?_, fun h => reserved ((reservedWord_iff w).2 (.inr h))⟩ <;>
    · intro hn
      rw [word_eq_of_fields h0 hn]
      exact ⟨rfl, rfl⟩

/-- Settles O4: eight fixed words. -/
theorem tableWordsDecode : Obligations.TableWordsDecode := ⟨rfl, rfl, rfl, rfl, rfl, rfl, rfl, rfl⟩

end Sys2Proof

namespace Sys2Proof.Machine

/-! ### A loaded code word -/

/-- The command that consists of frame `f` owns it, in the phase its body begins with (R27). -/
theorem phaseOwned_bodyStart (f : WireOp) :
    phaseOwned f.command (bodyStart f.command).1 f ∧ (bodyStart f.command).1.framed = true := by
  cases f <;> simp [WireOp.command, bodyStart, phaseOwned, Phase.framed]

theorem loadCode_wire {b : Byte} {f : WireOp} (h : decodeWire b = some f) (s : State) :
    loadCode (.wire b) s =
      { s with busy := true, op := f.command, phase := (bodyStart f.command).1, frame := f, pos := 0,
               schedule := .sequencer :: s.schedule } := by
  cases f <;> simp [loadCode, h, WireOp.command, bodyStart]

/-- Where a frame is in progress, the command that owns it and the frame's own row make the same event (R27, R46). -/
theorem exec_latched_eq_frame {s : State} (ho : phaseOwned s.op s.phase s.frame) (hf : s.phase.framed = true) :
    exec s.op.instr s = exec s.frame.instr s := by
  rw [exec_latched_framed ho hf, exec_wire, runFrame_next s.frame s hf rfl]

/-- Settles O8: a loaded command word is fetched and decoded by computation; a loaded frame is run by the command that
consists of it, whose step is the frame's own. -/
theorem loadedWordRunsNext : Obligations.LoadedWordRunsNext := by
  refine ⟨fun s n => rfl, fun s n f hf => ?_⟩
  have load : s.withFetchWord 8 n = loadCode (.wire (BitVec.ofNat 8 n)) s := rfl
  obtain ⟨ho, hp⟩ := phaseOwned_bodyStart f
  rw [load, loadCode_wire hf, step_sequencer_cons rfl rfl]
  exact exec_latched_eq_frame (s := { s with
    busy := true, op := f.command, phase := (bodyStart f.command).1, frame := f, pos := 0 }) ho hp

/-! ### Commands that carry no address -/

/-- The state with other contents of ADDR and LEN. -/
def State.setRange (a : Word) (n : BitVec 11) (s : State) : State := { s with addr := a, len := n }

section
variable (a : Word) (n : BitVec 11)

@[simp] theorem State.setRange_phase (s : State) : (s.setRange a n).phase = s.phase := rfl
@[simp] theorem State.setRange_pos (s : State) : (s.setRange a n).pos = s.pos := rfl

theorem commandWrite_setRange (o : Op) (s : State) :
    commandWrite o (s.setRange a n) = (commandWrite o s).setRange a n := by
  simp only [commandWrite, apply_ite (State.setRange a n)]
  rfl

/-- Only an address-bearing command is validated against ADDR and LEN (R77). -/
theorem validate_setRange {o : Op} (ho : bearsAddress o = false) (p : Phase) (f : WireOp) (s : State) :
    validate o (beginBody p f) (s.setRange a n) = (validate o (beginBody p f) s).setRange a n := by
  simp only [validate, ho, Bool.false_and, apply_ite (State.setRange a n)]
  rfl

theorem wakeStep_setRange (p : Phase) (f : WireOp) (s : State) :
    wakeStep (beginBody p f) (s.setRange a n) = (wakeStep (beginBody p f) s).setRange a n := by
  simp only [wakeStep, apply_ite (State.setRange a n)]
  rfl

/-- Only READ and WRITE frames send ADDR or have LEN in their layout (R55, R60). -/
theorem frameEvent_setRange {f : WireOp} (hf : bearsAddress f.command = false) (s : State) (p : Nat) :
    frameEvent f (s.setRange a n) p = frameEvent f s p := by
  cases f
  case read | write => cases hf
  all_goals rfl

theorem keepByte_setRange (f : WireOp) (j : Nat) (i : Byte) (s : State) :
    keepByte f j i (s.setRange a n) = (keepByte f j i s).setRange a n := by
  cases f
  case rdsr =>
    simp only [keepByte, apply_ite (State.setRange a n)]
    rfl
  all_goals rfl

theorem writePageNext_setRange (f : WireOp) (s : State) :
    writePageNext f (s.setRange a n) = (writePageNext f s).setRange a n := by
  simp only [writePageNext, State.setRange_phase]
  cases s.phase
  case writeEnabling | writing | polling =>
    simp only [apply_ite (State.setRange a n)]
    rfl
  all_goals rfl

theorem frameEnd_setRange (f : WireOp) (s : State) : frameEnd f (s.setRange a n) = (frameEnd f s).setRange a n := by
  simp only [frameEnd, apply_ite (State.setRange a n), ← writePageNext_setRange]
  rfl

theorem frameStep_setRange {f : WireOp} (hf : bearsAddress f.command = false) (s : State) :
    frameStep f (s.setRange a n) = (frameStep f s).setRange a n := by
  unfold frameStep
  rw [State.setRange_pos, frameEvent_setRange a n hf]
  cases frameEvent f s s.pos with
  | csAssert => rfl
  | send o => rfl
  | recv j => exact congrArg (fun t : State => { t with pos := s.pos + 1 }) (keepByte_setRange a n f j _ (xferRecv s))
  | csDeassert => exact frameEnd_setRange a n f (closeFrame f (csDeassert s))

/-- A single-frame command is `runCommand` of its frame (R57). -/
theorem exec_command (f : WireOp) (s : State) :
    exec f.command.instr s =
      runCommand f.command (beginBody (bodyStart f.command).1 f) (singleFrame (bodyStart f.command).1 f) s := by
  cases f <;> rfl

theorem exec_wire_setRange {f : WireOp} (hf : bearsAddress f.command = false) {s t : State}
    (h : exec f.instr s = .next t) : exec f.instr (s.setRange a n) = .next (t.setRange a n) := by
  rw [exec_wire] at h ⊢
  obtain ⟨hp, hs, rfl⟩ := runFrame_eq_next.1 h
  rw [runFrame_next f (s.setRange a n) hp hs, frameStep_setRange a n hf]

theorem exec_command_setRange {f : WireOp} (hf : bearsAddress f.command = false) {s t : State}
    (h : exec f.command.instr s = .next t) : exec f.command.instr (s.setRange a n) = .next (t.setRange a n) := by
  rw [exec_command] at h ⊢
  rcases runCommand_eq_next h with ⟨hp, rfl⟩ | ⟨hp, rfl⟩ | ⟨hp, rfl⟩ | hb
  · rw [runCommand_idle _ _ _ (s.setRange a n) hp, commandWrite_setRange]
  · rw [runCommand_accepted _ _ _ (s.setRange a n) hp, validate_setRange a n hf]
  · rw [runCommand_waking _ _ _ (s.setRange a n) hp, wakeStep_setRange]
  · obtain ⟨hp, hpf, hs, rfl⟩ := singleFrame_eq_next hb
    rw [runCommand_single _ _ f (s.setRange a n) hp (hp ▸ hpf) hs, frameStep_setRange a n hf]

end

/-- Settles O48: each of the twelve is a frame without an address, or the command that consists of one. -/
theorem onlyAddressCommandsReadAddrAndLen : Obligations.OnlyAddressCommandsReadAddrAndLen := by
  intro i s t a n hi h
  have frame : ∀ f : WireOp, bearsAddress f.command = false → i = f.command.instr ∨ i = f.instr →
      exec i (s.setRange a n) = .next (t.setRange a n) := by
    rintro f hf (rfl | rfl)
    · exact exec_command_setRange a n hf h
    · exact exec_wire_setRange a n hf h
  rcases hi with hi | hi | hi | hi | hi | hi | hi | hi | hi | hi | hi | hi
  · exact frame .wren rfl (.inl hi)
  · exact frame .wrdi rfl (.inl hi)
  · exact frame .rdsr rfl (.inl hi)
  · exact frame .wrsr rfl (.inl hi)
  · exact frame .rdid rfl (.inl hi)
  · exact frame .sleep rfl (.inl hi)
  · exact frame .wren rfl (.inr hi)
  · exact frame .wrdi rfl (.inr hi)
  · exact frame .rdsr rfl (.inr hi)
  · exact frame .wrsr rfl (.inr hi)
  · exact frame .rdid rfl (.inr hi)
  · exact frame .sleep rfl (.inr hi)

end Sys2Proof.Machine
end

section
/-! The bus, one event at a time (40_bus_transport.md R64 to R74): where chip-select is low, what one step does on the bus,
and the events of the frames that WRITE_PAGE sends. -/

namespace Sys2Proof.Machine

/-! ### Where chip-select is low -/

/-- A frame is open from its second event on (R70). -/
theorem isOpen_iff_of_framed {s : State} (h : s.Inv) (hf : s.phase.framed = true) : s.isOpen = true ↔ 1 ≤ s.pos := by
  have hpos := h.position
  cases hp : s.phase <;> simp only [hp, Phase.framed, Bool.false_eq_true] at hf <;>
    simp only [State.positionOK, hp] at hpos <;> exact hpos.1

theorem isOpen_iff_of_waking {s : State} (h : s.Inv) (hp : s.phase = .waking) : s.isOpen = true ↔ s.pos = 1 := by
  have hpos := h.position
  simp only [State.positionOK, hp] at hpos
  exact hpos.1

/-- A phase without a frame and without the wake pulse has no transaction. -/
theorem closed_of_unframed {s : State} (h : s.Inv) (hf : s.phase.framed = false) (hw : s.phase ≠ .waking) :
    s.isOpen = false := by
  have hpos := h.position
  cases hp : s.phase <;> simp_all [Phase.framed, State.positionOK]

theorem csN_of_closed {s : State} (h : s.Inv) (ho : s.isOpen = false) : s.csN = true := by
  rw [h.cs_open, ho]
  rfl

theorem closed_of_not_busy {s : State} (h : s.Inv) (hb : s.busy = false) : s.isOpen = false := by
  cases ho : s.isOpen with
  | false => rfl
  | true => exact absurd ((h.open_busy ho).symm.trans hb) (by decide)

/-- Settles O18: chip-select is high wherever no transaction is open, and a completing step leaves the block not busy. -/
theorem chipSelectIsReleased : Obligations.ChipSelectIsReleased := by
  intro s hr
  have h := hr.inv
  refine ⟨fun hf h0 => csN_of_closed h ?_, fun hf hw => csN_of_closed h (closed_of_unframed h hf hw),
    fun hw h1 => csN_of_closed h ?_, fun t hs _ hb => ?_, fun t hreset hs => ?_⟩
  · rw [← Bool.not_eq_true, isOpen_iff_of_framed h hf]
    omega
  · rwa [← Bool.not_eq_true, isOpen_iff_of_waking h hw]
  · have ht := inv_step h hs
    have ho := closed_of_not_busy ht hb
    exact ⟨csN_of_closed ht ho, ho⟩
  · obtain ⟨rest, hq | hq⟩ := hreset
    · cases (step_reset hq).symm.trans hs
      rfl
    · cases (step_powerOn hq).symm.trans hs
      rfl

/-! ### What one step does on the bus -/

/-- What a step does on the bus: nothing, or one event, with chip-select as the primitive of that event asks for and
leaves it (R65, R66, R69, R73). -/
inductive BusMove (s t : State) : Prop where
  | silent (ht : t.trace = s.trace)
  | csDown (ht : t.trace = .csDown :: s.trace) (before : s.isOpen = false) (after : t.isOpen = true ∧ t.csN = false)
  | sent (o : Byte) (ht : t.trace = .sent o :: s.trace) (before : s.isOpen = true) (after : t.isOpen = true)
  | exchanged (i : Byte) (ht : t.trace = .exchanged 0 i :: s.trace) (before : s.isOpen = true) (after : t.isOpen = true)
  | csUp (ht : t.trace = .csUp :: s.trace) (before : s.isOpen = true) (after : t.isOpen = false ∧ t.csN = true)
  | wait (w : WaitKind) (ht : t.trace = .wait w :: s.trace) (before : s.isOpen = false) (after : t.isOpen = false)

theorem busMove_frameStep {s : State} (h : s.Inv) (hf : s.phase.framed = true) : BusMove s (frameStep s.frame s) := by
  have hl := outLen_pos s.frame s
  rcases frameStep_cases s.frame s with ⟨h0, e⟩ | ⟨h1, -, e⟩ | ⟨h1, -, e⟩ | ⟨h1, e⟩ <;> rw [e]
  · refine .csDown rfl ?_ ⟨rfl, rfl⟩
    rw [← Bool.not_eq_true, isOpen_iff_of_framed h hf]
    omega
  · have ho := open_of_framed h hf h1
    exact .sent _ rfl ho ho
  · have ho := open_of_framed h hf (by omega)
    exact .exchanged s.misoByte (by simp) ho (by simpa using ho)
  · obtain ⟨-, ht, hc, ho, -⟩ := frameEnd_csUp s.frame s
    exact .csUp ht (open_of_framed h hf (by omega)) ⟨ho, hc⟩

/-- The wake pulse is CS↓, CS↑ and WAIT(WAKE), in this order (R89). -/
theorem busMove_wakeStep {s : State} (h : s.Inv) (hp : s.phase = .waking) (ho : s.op ≠ .illegal) :
    BusMove s (wakeStep (startOf s.op) s) := by
  have hopen := isOpen_iff_of_waking h hp
  have closed : s.pos ≠ 1 → s.isOpen = false := fun h1 => by rwa [← Bool.not_eq_true, hopen]
  rcases wakeStep_cases ho s with ⟨h0, e⟩ | ⟨h1, e⟩ | ⟨h2, p, f, e⟩ <;> rw [e]
  · exact .csDown rfl (closed (by omega)) ⟨rfl, rfl⟩
  · exact .csUp rfl (hopen.2 h1) ⟨rfl, rfl⟩
  · exact .wait .wake rfl (closed (by omega)) (closed (by omega))

theorem busMove_sequencerStep {s t : State} (h : s.Inv) (m : SequencerStep s t) : BusMove s t := by
  cases m with
  | validate hp e =>
    subst e
    rcases validate_complete_or_begin s.op s with ⟨c, e⟩ | ⟨p, f, e⟩ <;> rw [e] <;> exact .silent rfl
  | wake hp ho e => exact e ▸ busMove_wakeStep h hp ho
  | frame hf e => exact e ▸ busMove_frameStep h hf
  | beginWrite hp e =>
    rw [e, beginWrite_eq]
    exact .csDown rfl (closed_of_unframed h (by simp [hp, Phase.framed]) (by simp [hp])) ⟨rfl, rfl⟩
  | settle hp e =>
    have ho := closed_of_unframed h (by simp [hp, Phase.framed]) (by simp [hp])
    exact e ▸ .wait .settle rfl ho ho

/-- A reset in the middle of a transaction ends it, and no other reset shows on the bus (R114). -/
theorem busMove_reset {s t : State} {rest : List Turn}
    (e : t = blockReset { s with schedule := rest } ∨ t = blockPowerOn { s with schedule := rest }) : BusMove s t := by
  cases ho : s.isOpen with
  | false => rcases e with rfl | rfl <;> exact .silent (by simp [ho])
  | true => rcases e with rfl | rfl <;> exact .csUp (by simp [ho]) ho ⟨rfl, rfl⟩

theorem hostWrite_trace {k : BitVec 10} (hk : k.toNat ≠ 0) (w : Word) (s : State) : (hostWrite k w s).trace = s.trace := by
  rw [hostWrite, if_neg hk]
  split_ifs <;> rfl

/-- Every step makes at most one bus event, where the rule of that event allows it: of the host's turns only a reset can
make one. -/
theorem busMove_step {s t : State} (h : s.Inv) (hs : step s = .next t) : BusMove s t := by
  obtain ⟨rest, turn⟩ := step_cases h hs
  cases turn with
  | sequencer _ _ m =>
    cases busMove_sequencerStep (inv_schedule h rest) m with
    | silent ht => exact .silent ht
    | csDown ht ho hc => exact .csDown ht ho hc
    | sent o ht ho hc => exact .sent o ht ho hc
    | exchanged i ht ho hc => exact .exchanged i ht ho hc
    | csUp ht ho hc => exact .csUp ht ho hc
    | wait w ht ho hc => exact .wait w ht ho hc
  | command _ w _ _ e =>
    subst e
    rcases commandWrite_cases (decodeOp w) { s with schedule := rest } with ⟨-, e⟩ | ⟨-, -, e⟩ | ⟨-, -, e⟩ <;> rw [e] <;>
      exact .silent rfl
  | write k w _ hk e => exact .silent (e ▸ hostWrite_trace hk w _)
  | restful _ _ e | read _ _ e | waitIdle _ e => exact .silent (e ▸ rfl)
  | reset _ e => exact busMove_reset (.inl e)
  | powerOn _ e => exact busMove_reset (.inr e)
  | devicePowerUp _ e => exact .silent (by simp [e])

/-- Settles O19: the step's one event, if any, is named by the newest entry of the trace. -/
theorem oneTransactionAtATime : Obligations.OneTransactionAtATime := by
  intro s t h hs
  cases busMove_step h hs <;> simp_all

/-! ### The frames of WRITE_PAGE -/

/-- Past validation and waking, WRITE_PAGE and the row of the frame in progress make that frame's next event (R27, R93). -/
theorem exec_page_frame {i : Instr} {s : State} (hi : i = .writePage ∨ i = s.frame.instr) (hop : s.op = .writePage)
    (ho : phaseOwned .writePage s.phase s.frame) (hf : s.phase.framed = true) :
    exec i s = .next (frameStep s.frame s) := by
  rcases hi with rfl | rfl
  · have e := exec_latched_framed (hop ▸ ho) hf
    rwa [hop] at e
  · rw [exec_wire, runFrame_next s.frame s hf rfl]

/-- The bytes of a WRITE frame: opcode, ADDR[15:8], ADDR[7:0], and WRBUF from its first byte on (R55). -/
theorem outByte_write (s : State) :
    outByte .write s 0 = 0x02 ∧ outByte .write s 1 = s.addr.extractLsb' 8 8 ∧ outByte .write s 2 = s.addr.extractLsb' 0 8 ∧
    ∀ j, outByte .write s (j + 3) = s.wrByte j := by
  refine ⟨rfl, rfl, rfl, fun j => ?_⟩
  simp (disch := omega) only [outByte, if_neg]
  rfl

/-- Settles O42: each event by its place in the layout of its frame. -/
theorem writePageSendsItsFrames : Obligations.WritePageSendsItsFrames := by
  intro i s hi hop hp
  have owned : phaseOwned .writePage s.phase s.frame ∧ s.phase.framed = true := by
    rcases hp with ⟨hp, hf⟩ | ⟨hp, hf⟩ | ⟨hp, hf⟩ <;> simp [hp, hf, phaseOwned, Phase.framed]
  rw [exec_page_frame hi hop owned.1 owned.2]
  refine ⟨fun h0 => ?_, fun o ho => ?_, fun hp hf h2 => ?_⟩
  · rw [frameStep_csAssert _ _ h0]
    rfl
  · have sent : 1 ≤ s.pos ∧ s.pos ≤ outLen s.frame s ∧ outByte s.frame s (s.pos - 1) = o := by
      rcases ho with ⟨hf, hq, rfl⟩ | ⟨hf, hq, rfl⟩ | ⟨hf, hw⟩ <;> rw [hf]
      · rw [hq]
        exact ⟨le_rfl, le_rfl, rfl⟩
      · rw [hq]
        exact ⟨le_rfl, le_rfl, rfl⟩
      · have hl : outLen .write s = 3 + s.len.toNat := rfl
        obtain ⟨opcode, addrHi, addrLo, data⟩ := outByte_write s
        rcases hw with ⟨hq, rfl⟩ | ⟨hq, rfl⟩ | ⟨hq, rfl⟩ | ⟨h4, hn, rfl⟩
        · exact ⟨by omega, by omega, by rw [hq]; exact opcode⟩
        · exact ⟨by omega, by omega, by rw [hq]; exact addrHi⟩
        · exact ⟨by omega, by omega, by rw [hq]; exact addrLo⟩
        · refine ⟨by omega, by omega, ?_⟩
          rw [← data, show s.pos - 4 + 3 = s.pos - 1 by omega]
    obtain ⟨h1, hl, rfl⟩ := sent
    rw [frameStep_send _ _ h1 hl]
    rfl
  · rw [hf, frameStep_recv _ _ (by simp [outLen, h2]) (by simp [outLen, readLen, h2])]
    simp [keepByte, hp, hf, h2, xferRecv]

end Sys2Proof.Machine
end

section
/-! What the device answers outside a read phase reaches no register (40_bus_transport.md R71): an instruction is chosen by
the phase and the frame alone, and every operation but the read phase's `Xfer` commutes with a change of the device. -/

namespace Sys2Proof

/-- The rows of the opcode table: a frame, the command that consists of one, WRITE_PAGE and ILLEGAL (R55, R57). -/
theorem Instr.frame_or_command (i : Instr) :
    (∃ f : WireOp, i = f.instr) ∨ (∃ f : WireOp, i = f.command.instr) ∨ i = .writePage ∨ ∃ w, i = .illegal w := by
  cases i
  case writePage => exact .inr (.inr (.inl rfl))
  case illegal w => exact .inr (.inr (.inr ⟨w, rfl⟩))
  case wren => exact .inr (.inl ⟨.wren, rfl⟩)
  case wrdi => exact .inr (.inl ⟨.wrdi, rfl⟩)
  case rdsr => exact .inr (.inl ⟨.rdsr, rfl⟩)
  case wrsr => exact .inr (.inl ⟨.wrsr, rfl⟩)
  case read => exact .inr (.inl ⟨.read, rfl⟩)
  case write => exact .inr (.inl ⟨.write, rfl⟩)
  case rdid => exact .inr (.inl ⟨.rdid, rfl⟩)
  case sleep => exact .inr (.inl ⟨.sleep, rfl⟩)
  case wireWren => exact .inl ⟨.wren, rfl⟩
  case wireWrdi => exact .inl ⟨.wrdi, rfl⟩
  case wireRdsr => exact .inl ⟨.rdsr, rfl⟩
  case wireWrsr => exact .inl ⟨.wrsr, rfl⟩
  case wireRead => exact .inl ⟨.read, rfl⟩
  case wireWrite => exact .inl ⟨.write, rfl⟩
  case wireRdid => exact .inl ⟨.rdid, rfl⟩
  case wireSleep => exact .inl ⟨.sleep, rfl⟩

end Sys2Proof

namespace Sys2Proof.Machine

/-! ### Phase and frame choose what an instruction does -/

section
variable {s t u : State} (hf : s.phase.framed = true) (hp : u.phase = s.phase) (hfr : u.frame = s.frame)
include hf hp hfr

/-- Where a frame's row runs, it runs in every state at the same position. -/
theorem runFrame_of_same {f : WireOp} (h : runFrame f s = .next t) : runFrame f u = .next (frameStep u.frame u) := by
  obtain ⟨-, hs, -⟩ := runFrame_eq_next.1 h
  rw [hfr, hs, runFrame_next f u (hp ▸ hf) (hfr.trans hs)]

theorem writePageBody_of_same (h : writePageBody s = .next t) : writePageBody u = .next (frameStep u.frame u) := by
  have frame : ∀ {f}, runFrame f s = .next t → runFrame f u = .next (frameStep s.frame u) :=
    fun e => hfr ▸ runFrame_of_same hf hp hfr e
  unfold writePageBody at h ⊢
  rw [hp, hfr]
  cases hq : s.phase <;> simp only [hq] at h ⊢
  case writeEnabling => split_ifs at h ⊢ <;> exact frame h
  case writing | polling => exact frame h
  case writeEnableVerified | settling => simp [hq, Phase.framed] at hf
  all_goals cases h

/-- Where an instruction makes an event of the frame in progress, it makes that frame's event in every state at the same
position. -/
theorem exec_framed_of_same {i : Instr} (h : exec i s = .next t) : exec i u = .next (frameStep u.frame u) := by
  have other : ∀ {p : Phase}, p.framed = false → s.phase ≠ p := by
    rintro p hn rfl
    simp [hn] at hf
  rcases i.frame_or_command with ⟨f, rfl⟩ | ⟨f, rfl⟩ | rfl | ⟨w, rfl⟩
  · rw [exec_wire] at h ⊢
    exact runFrame_of_same hf hp hfr h
  · rw [exec_command] at h ⊢
    rcases runCommand_eq_next h with ⟨hq, -⟩ | ⟨hq, -⟩ | ⟨hq, -⟩ | hb
    · exact absurd hq (other rfl)
    · exact absurd hq (other rfl)
    · exact absurd hq (other rfl)
    · obtain ⟨hq, -, hs, -⟩ := singleFrame_eq_next hb
      rw [runCommand_single _ _ f u (hp.trans hq) (hq ▸ hf) (hfr.trans hs), hfr, hs]
  · rw [exec_writePage_body s (other rfl) (other rfl) (other rfl)] at h
    rw [exec_writePage_body u (hp ▸ other rfl) (hp ▸ other rfl) (hp ▸ other rfl)]
    exact writePageBody_of_same hf hp hfr h
  · have hi : execIllegal w s = .next t := h
    unfold execIllegal at hi
    split at hi
    case h_1 hq | h_2 hq => exact absurd hq (other rfl)
    all_goals cases hi

end

/-! ### The wake pulse, step by step -/

theorem wakeStep_csAssert (start : State → State) {s : State} (h0 : s.pos = 0) :
    wakeStep start s = { csAssert s with pos := 1 } := if_pos h0

theorem wakeStep_csDeassert (start : State → State) {s : State} (h1 : s.pos = 1) :
    wakeStep start s = { csDeassert s with pos := 2 } := by
  simp [wakeStep, h1]

theorem wakeStep_wait (start : State → State) {s : State} (h0 : s.pos ≠ 0) (h1 : s.pos ≠ 1) :
    wakeStep start s = start { busWait .wake s with wakeNeeded := false } := by
  simp [wakeStep, h0, h1]

/-! ### Another device -/

/-- The state with another device and another free-value counter. -/
def State.withDevice (d : Device) (n : Nat) (s : State) : State := { s with device := d, draws := n }

section
variable (d : Device) (n : Nat)

@[simp] theorem State.withDevice_phase (s : State) : (s.withDevice d n).phase = s.phase := rfl
@[simp] theorem State.withDevice_pos (s : State) : (s.withDevice d n).pos = s.pos := rfl
@[simp] theorem State.withDevice_frame (s : State) : (s.withDevice d n).frame = s.frame := rfl

theorem commandWrite_withDevice (o : Op) (s : State) :
    commandWrite o (s.withDevice d n) = (commandWrite o s).withDevice d n := by
  simp only [commandWrite, apply_ite (State.withDevice d n)]
  rfl

theorem startOf_withDevice (o : Op) (s : State) : startOf o (s.withDevice d n) = (startOf o s).withDevice d n := by
  cases o <;> rfl

theorem validate_withDevice (o : Op) (s : State) :
    validate o (startOf o) (s.withDevice d n) = (validate o (startOf o) s).withDevice d n := by
  simp only [validate, startOf_withDevice, apply_ite (State.withDevice d n)]
  rfl

theorem wakeStep_withDevice (o : Op) (s : State) :
    ∃ d' n', wakeStep (startOf o) (s.withDevice d n) = (wakeStep (startOf o) s).withDevice d' n' := by
  by_cases h0 : s.pos = 0
  · refine ⟨d.csDown, n, ?_⟩
    rw [wakeStep_csAssert _ h0, wakeStep_csAssert _ (s := s.withDevice d n) h0]
    rfl
  by_cases h1 : s.pos = 1
  · refine ⟨d.csUp, n, ?_⟩
    rw [wakeStep_csDeassert _ h1, wakeStep_csDeassert _ (s := s.withDevice d n) h1]
    rfl
  · refine ⟨d, n, ?_⟩
    rw [wakeStep_wait _ h0 h1, wakeStep_wait _ (s := s.withDevice d n) h0 h1]
    exact startOf_withDevice d n o { busWait .wake s with wakeNeeded := false }

theorem writePageNext_withDevice (f : WireOp) (s : State) :
    writePageNext f (s.withDevice d n) = (writePageNext f s).withDevice d n := by
  simp only [writePageNext, State.withDevice_phase]
  cases s.phase
  case writeEnabling | writing | polling =>
    simp only [apply_ite (State.withDevice d n)]
    rfl
  all_goals rfl

theorem frameEnd_withDevice (f : WireOp) (s : State) :
    frameEnd f (s.withDevice d n) = (frameEnd f s).withDevice d n := by
  simp only [frameEnd, apply_ite (State.withDevice d n), ← writePageNext_withDevice]
  rfl

/-- The layout of a frame does not depend on the device (R55). -/
theorem frameEvent_withDevice (f : WireOp) (s : State) (p : Nat) :
    frameEvent f (s.withDevice d n) p = frameEvent f s p := by
  cases f <;> rfl

/-- Every event of a frame but the read phase's discards the device's answer (R66, R71). -/
theorem frameStep_withDevice (f : WireOp) {s : State} (hr : ∀ j, frameEvent f s s.pos ≠ .recv j) :
    ∃ d' n', frameStep f (s.withDevice d n) = (frameStep f s).withDevice d' n' := by
  simp only [frameStep, State.withDevice_pos, frameEvent_withDevice]
  cases he : frameEvent f s s.pos with
  | csAssert => exact ⟨d.csDown, n, rfl⟩
  | send o => exact ⟨d.receive o, (s.withDevice d n).nextDraws, rfl⟩
  | recv j => exact absurd he (hr j)
  | csDeassert => exact ⟨d.csUp, n, frameEnd_withDevice d.csUp n f (closeFrame f (csDeassert s))⟩

end

/-- Settles O49, by what the instruction does at its position. -/
theorem discardedAnswersReachNoRegister : Obligations.DiscardedAnswersReachNoRegister := by
  intro i s t d n hr h
  show ∃ d' n', exec i (s.withDevice d n) = .next (t.withDevice d' n')
  rcases exec_cases h with ⟨o, hi, hp, rfl⟩ | ⟨o, hi, hp, rfl⟩ | ⟨o, hi, ho, hp, rfl⟩ | ⟨hf, rfl⟩ | ⟨rfl, hp, rfl⟩ |
    ⟨rfl, hp, rfl⟩
  · exact ⟨d, n, by rw [exec_idle hi (s.withDevice d n) hp, commandWrite_withDevice]⟩
  · exact ⟨d, n, by rw [exec_accepted hi (s.withDevice d n) hp, validate_withDevice]⟩
  · obtain ⟨d', n', e⟩ := wakeStep_withDevice d n o s
    exact ⟨d', n', by rw [exec_waking hi ho (s.withDevice d n) hp, e]⟩
  · obtain ⟨d', n', e⟩ := frameStep_withDevice d n s.frame (hr hf)
    exact ⟨d', n', by rw [exec_framed_of_same (u := s.withDevice d n) hf rfl rfl h, State.withDevice_frame, e]⟩
  · refine ⟨d.csDown, n, ?_⟩
    rw [exec_writePage_body (s.withDevice d n) (by simp [hp]) (by simp [hp]) (by simp [hp])]
    simp only [writePageBody, State.withDevice_phase, hp]
    rfl
  · refine ⟨d, n, ?_⟩
    rw [exec_writePage_body (s.withDevice d n) (by simp [hp]) (by simp [hp]) (by simp [hp])]
    simp only [writePageBody, State.withDevice_phase, hp]
    rfl

end Sys2Proof.Machine
end

section
/-! One byte on the pins (40_bus_transport.md R67, R68): the receiver that samples `mosi` at each rising edge of `sclk` reads
the bits in the order they were sent. -/

namespace Sys2Proof.Machine

/-- The half of a bit with `sclk` low has no rising edge, whatever the level before it. -/
theorem risingSamples_low (prev b : Bool) (n : Nat) (l : List PinSample) :
    risingSamples prev (List.replicate (n + 1) ⟨false, b⟩ ++ l) = risingSamples false l := by
  induction n generalizing prev with
  | zero => simp [risingSamples]
  | succ n ih =>
    rw [List.replicate_succ, List.cons_append, risingSamples]
    simpa using ih false

/-- While `sclk` stays high there is no further rising edge. -/
theorem risingSamples_high (b : Bool) (n : Nat) (l : List PinSample) :
    risingSamples true (List.replicate n ⟨true, b⟩ ++ l) = risingSamples true l := by
  induction n with
  | zero => rfl
  | succ n ih => simpa [List.replicate_succ, risingSamples] using ih

/-- One bit has one rising edge, in its middle, at which `mosi` carries it (R67). -/
theorem risingSamples_bitWave {h : Nat} (hh : 0 < h) (prev b : Bool) (l : List PinSample) :
    risingSamples prev (bitWave h b ++ l) = b :: risingSamples true l := by
  obtain ⟨n, rfl⟩ := Nat.exists_eq_succ_of_ne_zero hh.ne'
  rw [bitWave, List.append_assoc, risingSamples_low, List.replicate_succ, List.cons_append, risingSamples]
  simpa using risingSamples_high b n l

/-- The receiver gets the bits that were sent. -/
theorem risingSamples_bits {h : Nat} (hh : 0 < h) (prev : Bool) (bits : List Bool) :
    risingSamples prev (bits.flatMap (bitWave h)) = bits := by
  induction bits generalizing prev with
  | nil => rfl
  | cons b bits ih => rw [List.flatMap_cons, risingSamples_bitWave hh, ih]

theorem xferWave_length (h : Nat) (o : Byte) : (xferWave h o).length = 16 * h := by
  simp [xferWave, wireBits, bitWave]
  omega

theorem wireBits_getElem? (o : Byte) {b : Nat} (hb : b < 8) : (wireBits o)[b]? = some (o.getLsbD (7 - b)) := by
  interval_cases b <;> rfl

/-- Shifting in the bits of a byte in wire order gives the byte (R67). -/
theorem assemble_wireBits (o : Byte) : assemble (wireBits o) = o := by
  refine BitVec.eq_of_getLsbD_eq fun i hi => ?_
  interval_cases i <;> simp [assemble, wireBits]

/-- Settles O54: the samples at the rising edges are the bits of the byte in wire order. -/
theorem byteOnThePins : Obligations.ByteOnThePins := by
  intro c o
  have samples : risingSamples false (xferWave c.halfPeriod o) = wireBits o :=
    risingSamples_bits (Nat.succ_pos _) false (wireBits o)
  rw [samples]
  exact ⟨xferWave_length _ o, fun _ => wireBits_getElem? o, rfl, assemble_wireBits o⟩

end Sys2Proof.Machine
end

section
/-! The misuse lock (41_command_framer.md R76, R79): what a CMD write does, and that a misused block rests until a reset. -/

namespace Sys2Proof.Machine

/-! ### The first step of a run -/

/-- A run that answers a next state makes its first step, and the rest of it from there. -/
theorem State.run_succ_eq_next {n : Nat} {s t : State} (h : s.run (n + 1) = .next t) :
    ∃ u, step s = .next u ∧ u.run n = .next t := by
  cases hs : step s with
  | next u => exact ⟨u, rfl, (State.run_succ hs).symm.trans h⟩
  | fault r | refused r =>
    simp only [State.run, Host.Core.run, show Sys2Proof.core.step s = _ from hs] at h
    cases h

/-! ### A write to CMD -/

/-- Settles O5. -/
theorem stepRunsTheWrittenCommand : Obligations.StepRunsTheWrittenCommand := by
  intro s w rest hs hb
  simp [step, fetch, hs, hb]

/-- Settles O28: a CMD write is `CommandWrite`, whose three branches these are. -/
theorem commandWriteAcceptsOrMarksMisuse : Obligations.CommandWriteAcceptsOrMarksMisuse := by
  intro s w rest h hs
  rw [step_cmdWrite hs rfl (idle_of h)]
  refine ⟨fun hm => ?_, fun hm hb => ?_, fun hm hb => ?_⟩
  · simp [commandWrite, hm]
  · simp [commandWrite, hm, hb]
  · simp [commandWrite, hm, hb, accept]

/-! ### The lock -/

/-- `t` is locked and at rest with nothing done on the bus since `s`, and no turn is pending that was not pending in `s`. -/
structure StaysLocked (s t : State) : Prop where
  misuse : t.misuse = true
  busy : t.busy = false
  trace : t.trace = s.trace
  turns : ∀ x ∈ t.schedule, x ∈ s.schedule
  device : (∀ x ∈ s.schedule, x ≠ .devicePowerUp) → t.device = s.device

theorem StaysLocked.trans {s t u : State} (k : StaysLocked s t) (l : StaysLocked t u) : StaysLocked s u where
  misuse := l.misuse
  busy := l.busy
  trace := l.trace.trans k.trace
  turns x hx := k.turns x (l.turns x hx)
  device hd := (l.device fun x hx => hd x (k.turns x hx)).trans (k.device hd)

/-- With no command running the sequencer does nothing, and at most its turn is used up (R80, R105). -/
theorem step_resting {s : State} (hb : s.busy = false) (hq : s.sequencerTurn) :
    ∃ l, (∀ x ∈ l, x ∈ s.schedule) ∧ step s = .next { s with schedule := l } := by
  rcases hq with hq | ⟨rest, hq⟩
  · exact ⟨s.schedule, fun _ hx => hx, show step s = .next s by simp [step, fetch, fetchLatched, hq, hb]⟩
  · exact ⟨rest, fun x hx => hq ▸ .tail _ hx, by simp [step, fetch, fetchLatched, hq, hb]⟩

/-- A host write outside CMD reaches neither the bus nor the pending turns. -/
theorem hostWrite_outside {k : BitVec 10} (hk : k.toNat ≠ 0) (w : Word) (s : State) :
    (hostWrite k w s).trace = s.trace ∧ (hostWrite k w s).device = s.device ∧
    (hostWrite k w s).schedule = s.schedule := by
  rw [hostWrite, if_neg hk]
  split_ifs <;> exact ⟨rfl, rfl, rfl⟩

theorem staysLocked_step {s t : State} (h : s.Inv) (hm : s.misuse = true) (hb : s.busy = false)
    (hr : ∀ x ∈ s.schedule, x ≠ .reset ∧ x ≠ .powerOn) (hs : step s = .next t) : StaysLocked s t := by
  obtain ⟨rest, turn⟩ := step_cases h hs
  have tail : ∀ {turn : Turn}, s.schedule = turn :: rest → ∀ x ∈ rest, x ∈ s.schedule :=
    fun hq x hx => hq ▸ .tail _ hx
  cases turn with
  | sequencer _ hb' _ => simp [hb] at hb'
  | restful hq _ _ =>
    obtain ⟨l, hl, e⟩ := step_resting hb hq
    cases e.symm.trans hs
    exact ⟨hm, hb, rfl, hl, fun _ => rfl⟩
  | command k w hq _ e =>
    have locked : commandWrite (decodeOp w) { s with schedule := rest } = { s with schedule := rest } := if_pos hm
    subst e
    rw [locked]
    exact ⟨hm, hb, rfl, tail hq, fun _ => rfl⟩
  | write k w hq hk e =>
    have flags := flagsKept_hostWrite hk w { s with schedule := rest }
    obtain ⟨ht, hd, hl⟩ := hostWrite_outside hk w { s with schedule := rest }
    subst e
    exact ⟨flags.misuse.trans hm, flags.busy.trans hb, ht, hl ▸ tail hq, fun _ => hd⟩
  | read k hq e => exact e ▸ ⟨hm, hb, rfl, tail hq, fun _ => rfl⟩
  | waitIdle hq e => exact e ▸ ⟨hm, hb, rfl, by simpa [hostWaitIdle, hb] using tail hq, fun _ => rfl⟩
  | reset hq _ => exact absurd rfl (hr .reset (by simp [hq])).1
  | powerOn hq _ => exact absurd rfl (hr .powerOn (by simp [hq])).2
  | devicePowerUp hq e =>
    exact e ▸ ⟨by simpa using hm, by simpa using hb, by simp, by simpa using tail hq,
      fun hd => absurd rfl (hd .devicePowerUp (by simp [hq]))⟩

theorem staysLocked_run {n : Nat} {s t : State} (h : s.Inv) (hm : s.misuse = true) (hb : s.busy = false)
    (hr : ∀ x ∈ s.schedule, x ≠ .reset ∧ x ≠ .powerOn) (hs : s.run n = .next t) : StaysLocked s t := by
  induction n generalizing s with
  | zero =>
    cases hs
    exact ⟨hm, hb, rfl, fun _ hx => hx, fun _ => rfl⟩
  | succ n ih =>
    obtain ⟨u, hu, hn⟩ := State.run_succ_eq_next hs
    have k := staysLocked_step h hm hb hr hu
    exact k.trans (ih (inv_step h hu) k.misuse k.busy (fun x hx => hr x (k.turns x hx)) hn)

/-- Settles O20, by induction on the number of steps. -/
theorem misuseLocksUntilReset : Obligations.MisuseLocksUntilReset := by
  intro n s t h hm hb hr hs
  have k := staysLocked_run h hm hb hr hs
  exact ⟨k.misuse, k.busy, k.trace, k.device⟩

end Sys2Proof.Machine
end

section
/-! A frame in progress (30_encoding.md R55, 40_bus_transport.md R65 to R71): the part of the trace that its events so far
have written, and a run of its events. -/

namespace Sys2Proof.Machine

/-! ### The bytes a frame sends -/

theorem outBytes_length (f : WireOp) (s : State) : (outBytes f s).length = outLen f s := by
  simp [outBytes]

/-- The bytes sent are read from the registers that no command changes (R23, R55). -/
theorem outBytes_congr {s t : State} (h : SameOperands s t) (f : WireOp) : outBytes f t = outBytes f s := by
  have byte : outByte f t = outByte f s := by
    funext j
    cases f <;> simp only [outByte, State.addrHi, State.addrLo, State.wrByte, h.addr, h.wrsrData, h.wrbuf, h.powerOns]
  rw [outBytes, outBytes, byte, outLen_congr f h.len]

theorem SameOperands.trans {s t u : State} (h : SameOperands s t) (k : SameOperands t u) : SameOperands s u where
  addr := k.addr.trans h.addr
  len := k.len.trans h.len
  cfg := k.cfg.trans h.cfg
  wrsrData := k.wrsrData.trans h.wrsrData
  wrbuf := k.wrbuf.trans h.wrbuf
  powerOns := k.powerOns.trans h.powerOns
  hrdata := k.hrdata.trans h.hrdata
  schedule := k.schedule.trans h.schedule

/-! ### The trace of an unfinished frame -/

/-- What the first `p` events of a frame write on the trace, newest first: the frame sends `out` and has received `answers`,
and its last event is not among them (R70). -/
def frameSoFar (out : List Byte) : Nat → List Byte → List BusEvent
  | 0, _ => []
  | p + 1, answers => (answers.map (.exchanged 0)).reverse ++ (((out.take p).map .sent).reverse ++ [.csDown])

theorem frameSoFar_send {out : List Byte} {p : Nat} (hp : p < out.length) :
    frameSoFar out (p + 2) [] = .sent out[p] :: frameSoFar out (p + 1) [] := by
  rw [frameSoFar, frameSoFar, List.take_succ_eq_append_getElem hp, List.map_append, List.reverse_append]
  rfl

/-- With every byte sent, the trace holds them all. -/
theorem frameSoFar_sent {out : List Byte} {p : Nat} (hp : out.length ≤ p) (answers : List Byte) :
    frameSoFar out (p + 1) answers =
      (answers.map (.exchanged 0)).reverse ++ ((out.map .sent).reverse ++ [.csDown]) := by
  simp [frameSoFar, List.take_of_length_le hp]

theorem frameSoFar_recv {out : List Byte} {p : Nat} (hp : out.length ≤ p) (answers : List Byte) (i : Byte) :
    frameSoFar out (p + 2) (answers ++ [i]) = .exchanged 0 i :: frameSoFar out (p + 1) answers := by
  rw [frameSoFar_sent (Nat.le_succ_of_le hp), frameSoFar_sent hp]
  simp

/-- `s` is inside its frame: `base` is the trace from before the frame, `answers` are the bytes its read phase has received,
and LAST_SR holds the one of an RDSR frame (R70, R85). -/
structure FrameAt (base : List BusEvent) (answers : List Byte) (s : State) : Prop where
  trace : s.trace = frameSoFar (outBytes s.frame s) s.pos answers ++ base
  received : answers.length = s.pos - 1 - outLen s.frame s
  lastSr : s.frame = .rdsr → ∀ sr, answers = [sr] → s.lastSr = sr

/-- A frame begins with nothing sent and nothing received. -/
theorem frameAt_begin {s : State} (h0 : s.pos = 0) : FrameAt s.trace [] s where
  trace := by simp [h0, frameSoFar]
  received := by simp [h0]
  lastSr _ sr h := by cases h

/-- The bytes received after the next event, which receives one where it is in the read phase. -/
def State.answersAfter (s : State) (answers : List Byte) : List Byte :=
  if outLen s.frame s < s.pos then answers ++ [s.misoByte] else answers

/-! ### One event -/

/-- What no event of a frame but its last changes: the operands, the latch, the command, its phase and frame, POLL_COUNT
outside the poller and LAST_SR outside an RDSR frame. -/
structure MidFrame (s t : State) : Prop where
  operands : SameOperands s t
  busy : t.busy = s.busy
  misuse : t.misuse = s.misuse
  wakeNeeded : t.wakeNeeded = s.wakeNeeded
  wel : t.wel = s.wel
  op : t.op = s.op
  phase : t.phase = s.phase
  frame : t.frame = s.frame
  pollCount : s.phase ≠ .polling → t.pollCount = s.pollCount
  lastSr : s.frame ≠ .rdsr → t.lastSr = s.lastSr

theorem MidFrame.refl (s : State) : MidFrame s s := by
  constructor
  case operands => constructor <;> rfl
  all_goals first | rfl | exact fun _ => rfl

theorem MidFrame.trans {s t u : State} (h : MidFrame s t) (k : MidFrame t u) : MidFrame s u where
  operands := h.operands.trans k.operands
  busy := k.busy.trans h.busy
  misuse := k.misuse.trans h.misuse
  wakeNeeded := k.wakeNeeded.trans h.wakeNeeded
  wel := k.wel.trans h.wel
  op := k.op.trans h.op
  phase := k.phase.trans h.phase
  frame := k.frame.trans h.frame
  pollCount hp := (k.pollCount (h.phase ▸ hp)).trans (h.pollCount hp)
  lastSr hf := (k.lastSr (h.frame ▸ hf)).trans (h.lastSr hf)

theorem midFrame_step {s : State} (hp : s.pos ≤ outLen s.frame s + readLen s.frame s) :
    MidFrame s (frameStep s.frame s) ∧ (frameStep s.frame s).pos = s.pos + 1 := by
  obtain ⟨operands, op, misuse⟩ := frameStep_sameOperands s.frame s
  rcases frameStep_cases s.frame s with ⟨h0, e⟩ | ⟨-, -, e⟩ | ⟨-, -, e⟩ | ⟨h1, -⟩
  · rw [e] at operands ⊢
    exact ⟨⟨operands, rfl, rfl, rfl, rfl, rfl, rfl, rfl, fun _ => rfl, fun _ => rfl⟩, by simp [h0]⟩
  · rw [e] at operands ⊢
    exact ⟨⟨operands, rfl, rfl, rfl, rfl, rfl, rfl, rfl, fun _ => rfl, fun _ => rfl⟩, rfl⟩
  · rw [e] at operands ⊢
    refine ⟨⟨operands, ?_, ?_, ?_, ?_, ?_, ?_, ?_, fun hq => ?_, fun hf => ?_⟩, rfl⟩
    case refine_8 => simp [keepByte_pollCount, hq]
    case refine_9 => simp [keepByte_lastSr, hf]
    all_goals simp
  · omega

/-- Every event but the last adds itself to the frame's part of the trace. -/
theorem frameAt_step {s : State} {base : List BusEvent} {answers : List Byte} (k : FrameAt base answers s)
    (hp : s.pos ≤ outLen s.frame s + readLen s.frame s) :
    FrameAt base (s.answersAfter answers) (frameStep s.frame s) := by
  obtain ⟨mid, hpos⟩ := midFrame_step hp
  have bytes : outBytes (frameStep s.frame s).frame (frameStep s.frame s) = outBytes s.frame s := by
    rw [mid.frame, outBytes_congr mid.operands]
  have len : outLen (frameStep s.frame s).frame (frameStep s.frame s) = outLen s.frame s := by
    rw [mid.frame, outLen_congr _ mid.operands.len]
  have none_yet : s.pos ≤ outLen s.frame s → answers = [] ∧ s.answersAfter answers = [] := by
    intro hle
    have : answers = [] := List.length_eq_zero_iff.1 (by have := k.received; omega)
    exact ⟨this, by simp [State.answersAfter, this, hle]⟩
  rcases frameStep_cases s.frame s with ⟨h0, e⟩ | ⟨h1, hle, e⟩ | ⟨h1, -, e⟩ | ⟨h1, -⟩
  · obtain ⟨-, ha'⟩ := none_yet (by omega)
    refine ⟨?_, by rw [ha', hpos, h0]; simp, fun _ sr h => by simp [ha'] at h⟩
    rw [bytes, hpos, ha', h0, e]
    simp [k.trace, h0, frameSoFar]
  · obtain ⟨ha, ha'⟩ := none_yet hle
    obtain ⟨p, hq⟩ : ∃ p, s.pos = p + 1 := ⟨s.pos - 1, by omega⟩
    refine ⟨?_, by rw [ha', hpos, len]; simp; omega, fun _ sr h => by simp [ha'] at h⟩
    have hl : p < (outBytes s.frame s).length := by rw [outBytes_length]; omega
    rw [bytes, hpos, ha', hq, frameSoFar_send hl, e]
    simp [k.trace, hq, ha, outBytes]
  · obtain ⟨p, hq⟩ : ∃ p, s.pos = p + 1 := ⟨s.pos - 1, by omega⟩
    have after : s.answersAfter answers = answers ++ [s.misoByte] := if_pos h1
    rw [after]
    refine ⟨?_, ?_, fun hf sr h => ?_⟩
    · have hl : (outBytes s.frame s).length ≤ p := by rw [outBytes_length]; omega
      rw [bytes, hpos, hq, frameSoFar_recv hl, e]
      simp [k.trace, hq]
    · have := k.received
      simp only [len, hpos, List.length_append, List.length_singleton]
      omega
    · have hm : s.misoByte = sr := by simp_all [List.append_eq_singleton_iff]
      rw [e]
      simp [keepByte_lastSr, mid.frame ▸ hf, hm]
  · omega

/-- Before its last event, a frame has received its whole read phase and its bytes stand on the trace (R70). -/
theorem frameAt_end {s : State} {base : List BusEvent} {answers : List Byte} (k : FrameAt base answers s)
    (hp : s.pos = 1 + outLen s.frame s + readLen s.frame s) :
    answers.length = readLen s.frame s ∧
    s.trace = (answers.map (.exchanged 0)).reverse ++ (((outBytes s.frame s).map .sent).reverse ++ .csDown :: base) := by
  have hl : (outBytes s.frame s).length ≤ outLen s.frame s + readLen s.frame s := by rw [outBytes_length]; omega
  refine ⟨by rw [k.received]; omega, ?_⟩
  rw [k.trace, show s.pos = outLen s.frame s + readLen s.frame s + 1 by omega, frameSoFar_sent hl]
  simp

/-! ### A run of a frame -/

/-- RDBUF holds the bytes that a READ or RDID frame has received so far, over what it held in `b` (R90, R91). -/
def ReceivedInto (b t : State) (answers : List Byte) : Prop :=
  ∀ x, t.rdByte x =
    if (b.frame = .read ∨ b.frame = .rdid) ∧ x < answers.length then answers.getD x 0 else b.rdByte x

/-- The next event of a frame of at most 1024 received bytes stores the byte it receives. -/
theorem receivedInto_step {b s : State} {base : List BusEvent} {answers : List Byte} (k : FrameAt base answers s)
    (r : ReceivedInto b s answers) (hf : s.frame = b.frame) (hp : s.pos ≤ outLen s.frame s + readLen s.frame s)
    (hr : readLen s.frame s ≤ 1024) : ReceivedInto b (frameStep s.frame s) (s.answersAfter answers) := by
  intro x
  rw [frameStep_rdByte, r x, State.answersAfter, ← hf]
  by_cases h1 : outLen s.frame s < s.pos
  · have event : frameEvent s.frame s s.pos = .recv answers.length := by rw [frameEvent_recv _ _ h1 hp, k.received]
    have small : answers.length < 1024 := by have := k.received; omega
    rw [event, if_pos h1]
    rcases Nat.lt_trichotomy x answers.length with hx | rfl | hx
    · simp [hx, hx.ne', Nat.lt_succ_of_lt hx]
    · simp [small]
    · simp [hx.ne, hx.not_gt, show ¬x < answers.length + 1 by omega]
  · have event : ∀ j, frameEvent s.frame s s.pos ≠ .recv j := by
      intro j
      rcases Nat.eq_zero_or_pos s.pos with h0 | h0
      · simp [h0]
      · simp [frameEvent_send _ _ h0 (Nat.not_lt.1 h1)]
    simp [event, h1]

/-- The first `n` events of a frame that the sequencer begins, with no host turn pending. -/
theorem run_frame {b : State} (ho : phaseOwned b.op b.phase b.frame) (hf : b.phase.framed = true) (hb : b.busy = true)
    (hq : b.hostSilent) (h0 : b.pos = 0) (hr : readLen b.frame b ≤ 1024) {n : Nat}
    (hn : n ≤ 1 + outLen b.frame b + readLen b.frame b) :
    ∃ t answers, b.run n = .next t ∧ t.pos = n ∧ MidFrame b t ∧ FrameAt b.trace answers t ∧
      ReceivedInto b t answers := by
  induction n with
  | zero => exact ⟨b, [], rfl, h0, .refl b, frameAt_begin h0, fun x => by simp⟩
  | succ n ih =>
    obtain ⟨t, answers, run, pos, mid, at_, rcv⟩ := ih (by omega)
    have len : outLen t.frame t = outLen b.frame b ∧ readLen t.frame t = readLen b.frame b := by
      rw [mid.frame]
      exact ⟨outLen_congr _ mid.operands.len, readLen_congr _ mid.operands.len mid.operands.cfg⟩
    have hp : t.pos ≤ outLen t.frame t + readLen t.frame t := by omega
    obtain ⟨mid', pos'⟩ := midFrame_step hp
    have next : step t = .next (frameStep t.frame t) := by
      rw [step_sequencer (mid.busy.trans hb) (mid.operands.schedule.trans hq)]
      exact exec_latched_framed (by rw [mid.op, mid.phase, mid.frame]; exact ho) (by rw [mid.phase]; exact hf)
    refine ⟨frameStep t.frame t, t.answersAfter answers, ?_, by rw [pos', pos], mid.trans mid', frameAt_step at_ hp,
      receivedInto_step at_ rcv mid.frame hp (by omega)⟩
    rw [State.run_add run, State.run_succ next, State.run_zero]

/-- A whole frame: its events in order, the last of which closes it and lets its command go on (R69, R70). -/
theorem run_whole_frame {b : State} (ho : phaseOwned b.op b.phase b.frame) (hf : b.phase.framed = true)
    (hb : b.busy = true) (hq : b.hostSilent) (h0 : b.pos = 0) (hr : readLen b.frame b ≤ 1024) :
    ∃ t answers, b.run (frameEvents b.frame b) = .next (frameEnd b.frame (closeFrame b.frame (csDeassert t))) ∧
      answers.length = readLen b.frame b ∧ MidFrame b t ∧ ReceivedInto b t answers ∧
      (b.frame = .rdsr → t.lastSr = answers.getD 0 0) ∧
      (csDeassert t).busTrace = b.busTrace ++ frameTrace b.frame b answers := by
  obtain ⟨t, answers, run, pos, mid, at_, rcv⟩ := run_frame ho hf hb hq h0 hr le_rfl
  have len : outLen t.frame t = outLen b.frame b ∧ readLen t.frame t = readLen b.frame b := by
    rw [mid.frame]
    exact ⟨outLen_congr _ mid.operands.len, readLen_congr _ mid.operands.len mid.operands.cfg⟩
  obtain ⟨received, trace⟩ := frameAt_end at_ (by omega)
  have next : step t = .next (frameEnd b.frame (closeFrame b.frame (csDeassert t))) := by
    rw [step_sequencer (mid.busy.trans hb) (mid.operands.schedule.trans hq),
      exec_latched_framed (by rw [mid.op, mid.phase, mid.frame]; exact ho) (by rw [mid.phase]; exact hf),
      frameStep_end _ _ (by omega), mid.frame]
  refine ⟨t, answers, ?_, received.trans len.2, mid, rcv, fun hf => ?_, ?_⟩
  · rw [show frameEvents b.frame b = 1 + outLen b.frame b + readLen b.frame b + 1 by simp only [frameEvents]; omega,
      State.run_add run, State.run_succ next, State.run_zero]
  · obtain ⟨sr, rfl⟩ := List.length_eq_one_iff.1 (received.trans (len.2.trans (by simp [hf, readLen])))
    exact at_.lastSr (mid.frame.trans hf) sr rfl
  · simp [State.busTrace, trace, frameTrace, mid.frame, outBytes_congr mid.operands]

end Sys2Proof.Machine
end

section
/-! Validation (41_command_framer.md R77, R78, R88) and the way into a command's body through the wake pulse (R89). -/

namespace Sys2Proof.Machine

/-! ### Validation, branch by branch -/

theorem addrOK_iff (a n : Nat) : addrOK a n = true ↔ a < 32768 ∧ n ≤ 1024 ∧ a + n ≤ 32768 := by
  simp only [addrOK, Bool.and_eq_true, decide_eq_true_eq, and_assoc]
  exact Iff.rfl

theorem bearsAddress_iff (o : Op) : bearsAddress o = true ↔ o = .read ∨ o = .write ∨ o = .writePage := by
  cases o <;> simp [bearsAddress]

theorem validate_outOfRange {o : Op} {s : State} (start : State → State) (ha : bearsAddress o = true)
    (hr : s.rangeOK = false) : validate o start s = complete .addressOutOfRange s := by
  have ho : o ≠ .illegal := by
    rintro rfl
    cases ha
  simp [validate, ho, ha, hr]

theorem validate_notEnabled {s : State} (start : State → State) (hr : s.rangeOK = true) (hw : s.wel ≠ .verified) :
    validate .write start s = complete .writeNotEnabled s := by
  simp [validate, hr, hw]

/-- A command that none of the three tests rejects is woken for, or starts. -/
theorem validate_pass {o : Op} {s : State} (start : State → State) (ho : o ≠ .illegal)
    (hr : bearsAddress o = true → s.rangeOK = true) (hw : o = .write → s.wel = .verified) :
    validate o start s = if s.wakeNeeded then { s with phase := .waking, pos := 0 } else start s := by
  have range : ¬(bearsAddress o && !s.rangeOK) = true := by simpa using hr
  have latch : ¬(o = .write ∧ s.wel ≠ .verified) := fun h => h.2 (hw h.1)
  rw [validate, if_neg ho, if_neg range, if_neg latch]

/-- Settles O31. -/
theorem reservedWordsCompleteIllegal : Obligations.ReservedWordsCompleteIllegal := by
  intro w s hp
  exact exec_accepted (i := .illegal w) rfl s hp

/-- Settles O29, by the branches of `Validate`. -/
theorem validationDecidesBeforeTheBus : Obligations.ValidationDecidesBeforeTheBus := by
  intro i o s hi hp
  have range : s.rangeOK = true ↔
      s.addr.toNat < 32768 ∧ s.len.toNat ≤ 1024 ∧ s.addr.toNat + s.len.toNat ≤ 32768 := addrOK_iff _ _
  rw [exec_accepted hi s hp, ← bearsAddress_iff, ← range]
  refine ⟨?_, fun ha hr => ?_, ?_, fun ho hr hw => ?_⟩
  · rintro rfl
    rfl
  · rw [validate_outOfRange _ ha (by simpa using hr)]
    rfl
  · rintro rfl hr hw
    rw [validate_notEnabled _ hr hw]
    rfl
  · rw [validate_pass _ ho hr hw, startOf_eq ho]
    refine ⟨fun hn => ?_, fun hn => ?_⟩ <;> simp [hn, beginBody]

/-! ### From acceptance to the first event of the body -/

/-- `b` is at the start of the body of command `o`, which was accepted in `s`: the wake pulse is on the trace if it was
needed, and only WAKE_NEEDED of the registers has changed (R77, R89). -/
structure BodyBegun (o : Op) (s b : State) : Prop where
  operands : SameOperands s b
  busy : b.busy = s.busy
  misuse : b.misuse = s.misuse
  op : b.op = s.op
  wel : b.wel = s.wel
  lastSr : b.lastSr = s.lastSr
  pollCount : b.pollCount = s.pollCount
  rdbuf : b.rdbuf = s.rdbuf
  wakeNeeded : b.wakeNeeded = false
  phase : b.phase = (bodyStart o).1
  frame : b.frame = (bodyStart o).2
  pos : b.pos = 0
  busTrace : b.busTrace = s.busTrace ++ s.wakeTrace

theorem step_waking {s : State} (hb : s.busy = true) (hq : s.hostSilent) (ho : s.op ≠ .illegal) (hp : s.phase = .waking) :
    step s = .next (wakeStep (startOf s.op) s) := by
  rw [step_sequencer hb hq, exec_waking (Op.op?_instr _) ho s hp]

/-- The wake pulse, three steps on (R89). -/
theorem run_wakePulse {s : State} (hb : s.busy = true) (hq : s.hostSilent) (ho : s.op ≠ .illegal)
    (hp : s.phase = .waking) (h0 : s.pos = 0) :
    s.run 3 = .next (startOf s.op { s with
      csN := true, isOpen := false, sclk := false, mosi := false, pos := 2, wakeNeeded := false
      device := s.device.csDown.csUp, trace := .wait .wake :: .csUp :: .csDown :: s.trace }) := by
  have fall := step_waking hb hq ho hp
  have rise := step_waking (s := { csAssert s with pos := 1 }) hb hq ho hp
  have wait := step_waking (s := { csDeassert { csAssert s with pos := 1 } with pos := 2 }) hb hq ho hp
  rw [wakeStep_csAssert _ h0] at fall
  rw [wakeStep_csDeassert _ rfl] at rise
  rw [wakeStep_wait _ (by simp) (by simp)] at wait
  rw [State.run_succ fall, State.run_succ rise, State.run_succ wait]
  rfl

/-- A command that passes validation is at the start of its body after one step, or four with the wake pulse (R125). -/
theorem run_to_body {o : Op} {s : State} (ho : o ≠ .illegal) (h : s.Ready o) :
    ∃ b, s.run (1 + s.wakeSteps) = .next b ∧ BodyBegun o s b := by
  obtain ⟨silent, busy, rfl, accepted, range, latch⟩ := h
  have first : step s = .next (if s.wakeNeeded then { s with phase := .waking, pos := 0 } else startOf s.op s) := by
    rw [step_sequencer busy silent, exec_accepted (Op.op?_instr _) s accepted, validate_pass _ ho range latch]
  cases hw : s.wakeNeeded with
  | false =>
    rw [if_neg (by simp [hw]), startOf_eq ho] at first
    refine ⟨_, by rw [State.wakeSteps, hw]; exact State.run_succ first, ?_⟩
    exact ⟨⟨rfl, rfl, rfl, rfl, rfl, rfl, rfl, rfl⟩, rfl, rfl, rfl, rfl, rfl, rfl, rfl, hw, rfl, rfl, rfl,
      by simp [State.busTrace, State.wakeTrace, hw]⟩
  | true =>
    rw [if_pos hw] at first
    have pulse := run_wakePulse (s := { s with phase := .waking, pos := 0 }) busy silent ho rfl rfl
    rw [startOf_eq ho] at pulse
    refine ⟨_, by rw [State.wakeSteps, hw]; exact (State.run_succ (n := 3) first).trans pulse, ?_⟩
    exact ⟨⟨rfl, rfl, rfl, rfl, rfl, rfl, rfl, rfl⟩, rfl, rfl, rfl, rfl, rfl, rfl, rfl, rfl, rfl, rfl, rfl,
      by simp [State.busTrace, State.wakeTrace, hw]⟩

/-! ### Whole commands -/

/-- A frame of a command that passed validation receives at most the 1024 bytes that RDBUF holds (R60, R78). -/
theorem readLen_le {f : WireOp} {s : State} (h : bearsAddress f.command = true → s.rangeOK = true) :
    readLen f s ≤ 1024 := by
  cases f
  case read =>
    obtain ⟨-, len, -⟩ := (addrOK_iff _ _).1 (h rfl)
    exact len
  case rdid =>
    have := s.cfg.idLen.isLt
    simp only [readLen]
    omega
  all_goals simp [readLen]

/-- Settles O55: validation, the wake pulse when it is needed, and one whole frame, at whose end the command completes. -/
theorem singleFrameCommandsRunWhole : Obligations.SingleFrameCommandsRunWhole := by
  intro f s _ ready
  have op : f.command ≠ .illegal ∧ f.command ≠ .writePage := by cases f <;> simp [WireOp.command]
  have start : (bodyStart f.command).2 = f ∧ (bodyStart f.command).1 ≠ .polling := by
    cases f <;> simp [WireOp.command, bodyStart]
  obtain ⟨owned, framed⟩ := phaseOwned_bodyStart f
  obtain ⟨b, wake, begun⟩ := run_to_body op.1 ready
  have frame := begun.frame.trans start.1
  have latched := begun.op.trans ready.latched
  have events : frameEvents f b = frameEvents f s := frameEvents_congr f begun.operands.len begun.operands.cfg
  have reads : readLen f b = readLen f s := readLen_congr f begun.operands.len begun.operands.cfg
  obtain ⟨t, answers, run, received, mid, rdbuf, lastSr, trace⟩ := run_whole_frame (b := b)
    (by rw [latched, begun.phase, frame]; exact owned) (by rw [begun.phase]; exact framed)
    (begun.busy.trans ready.busy) (begun.operands.schedule.trans ready.silent) begun.pos
    (by rw [frame, reads]; exact readLen_le ready.range)
  rw [frame] at run received lastSr trace
  have completes : (closeFrame f (csDeassert t)).op ≠ .writePage := by
    rw [closeFrame_op, csDeassert_op, mid.op, latched]
    exact op.2
  rw [frameEnd_single _ _ completes] at run
  refine ⟨complete .ok (closeFrame f (csDeassert t)), answers, ?_, received.trans reads, ?_, rfl, rfl, rfl, rfl,
    mid.misuse.trans begun.misuse, ?_, ?_, ?_, ?_, fun x => ?_,
    (begun.operands.trans mid.operands).trans ⟨rfl, rfl, rfl, rfl, rfl, rfl, rfl, rfl⟩⟩
  · rw [State.run_add wake, ← events]
    exact run
  · refine trace.trans ?_
    rw [begun.busTrace, frameTrace, frameTrace, outBytes_congr begun.operands]
  · simp [mid.wakeNeeded, begun.wakeNeeded]
  · simp [mid.wel, begun.wel]
  · by_cases hf : f = .rdsr
    · simpa [hf] using lastSr hf
    · simpa [hf] using (mid.lastSr (frame ▸ hf)).trans begun.lastSr
  · exact (mid.pollCount (begun.phase ▸ start.2)).trans begun.pollCount
  · have old := rdByte_congr begun.rdbuf begun.operands.powerOns x
    rw [← old, ← frame]
    exact rdbuf x

end Sys2Proof.Machine
end

section
/-! What the trace shows of the write-enable latch (41_command_framer.md R81, R82, 70_reset_and_hazards.md R122): the latch
leaves WL_CLEAR only by a WREN frame and reaches WL_VERIFIED only by a confirming RDSR frame, and the trace still ends with
them, since anything else on the bus clears the latch. -/

namespace Sys2Proof.Machine

/-! ### The evidence at the end of a frame -/

/-- What the trace `l` holds where the latch is `w` (R82). -/
def LatchEvidence (w : Wel) (l : List BusEvent) : Prop :=
  match w with
  | .clear => True
  | .requested => WrenPending l
  | .verified => ∃ sr l', l = .csUp :: .exchanged 0 sr :: .sent 0x05 :: .csDown :: l' ∧ welBit sr = true ∧ WrenPending l'

/-- Once verified, the WREN frame is still pending: the confirming RDSR frame is one of those that keep it so. -/
theorem LatchEvidence.wrenPending {w : Wel} {l : List BusEvent} (h : LatchEvidence w l) (hw : w ≠ .clear) :
    WrenPending l := by
  cases w with
  | clear => exact absurd rfl hw
  | requested => exact h
  | verified =>
    obtain ⟨sr, l', rfl, hb, hl⟩ := h
    exact .rdsr hl sr hb

theorem outBytes_of_frame (s : State) :
    outBytes .wren s = [0x06] ∧ outBytes .rdsr s = [0x05] ∧ outBytes .rdid s = [0x9F] ∧
    outBytes .read s = [0x03, s.addrHi, s.addrLo] :=
  ⟨rfl, rfl, rfl, rfl⟩

/-- Every row of R82's table has its evidence: a whole frame on the trace, over the evidence of the latch before it. -/
theorem latchEvidence_frame {f : WireOp} {s : State} {w : Wel} {sr : Byte} {base : List BusEvent} {answers : List Byte}
    (h : LatchEvidence w base) (received : answers.length = readLen f s) (hsr : f = .rdsr → answers = [sr]) :
    LatchEvidence (welAfter f sr w)
      (.csUp :: ((answers.map (.exchanged 0)).reverse ++ (((outBytes f s).map .sent).reverse ++ .csDown :: base))) := by
  obtain ⟨wren, rdsr, rdid, read⟩ := outBytes_of_frame s
  cases f
  case wren =>
    obtain rfl := List.length_eq_zero_iff.1 received
    rw [wren]
    exact .wren base
  case rdsr =>
    rw [hsr rfl, rdsr]
    cases hb : welBit sr
    · simp [welAfter, hb, LatchEvidence]
    · cases w
      case clear => simp [welAfter, hb, LatchEvidence]
      case requested | verified =>
        simp only [welAfter, hb, if_true]
        exact ⟨sr, base, rfl, hb, h.wrenPending (by simp)⟩
  case read =>
    rw [← List.map_reverse, read]
    cases w
    case clear => trivial
    case requested | verified => exact .read (h.wrenPending (by simp)) _ _ _
  case rdid =>
    rw [← List.map_reverse, rdid]
    cases w
    case clear => trivial
    case requested | verified => exact .rdid (h.wrenPending (by simp)) _
  all_goals trivial

/-! ### The invariant -/

/-- The trace bears the latch out; while a frame is in progress, the trace from before that frame does. -/
def State.LatchWitnessed (s : State) : Prop :=
  (s.phase.framed = false → LatchEvidence s.wel s.trace) ∧
  (s.phase.framed = true → ∃ base answers, FrameAt base answers s ∧ LatchEvidence s.wel base)

theorem latchWitnessed_unframed {s : State} (hf : s.phase.framed = false) (h : LatchEvidence s.wel s.trace) :
    s.LatchWitnessed :=
  ⟨fun _ => h, fun hp => by simp [hf] at hp⟩

/-- A frame, or a pause between two, begins with all the evidence on the trace. -/
theorem latchWitnessed_begin {s : State} (p : Phase) (f : WireOp) (h : LatchEvidence s.wel s.trace) :
    (beginBody p f s).LatchWitnessed :=
  ⟨fun _ => h, fun _ => ⟨s.trace, [], frameAt_begin (s := beginBody p f s) rfl, h⟩⟩

/-- A step that leaves the command, the bus and the latch alone keeps the invariant. -/
theorem State.LatchWitnessed.of_same {s t : State} (k : s.LatchWitnessed) (hp : t.phase = s.phase)
    (hw : t.wel = s.wel) (ht : t.trace = s.trace)
    (at_ : s.phase.framed = true → ∀ base answers, FrameAt base answers s → FrameAt base answers t) :
    t.LatchWitnessed := by
  refine ⟨fun hf => ?_, fun hf => ?_⟩
  · rw [hw, ht]
    exact k.1 (hp ▸ hf)
  · obtain ⟨base, answers, hat, h⟩ := k.2 (hp ▸ hf)
    exact ⟨base, answers, at_ (hp ▸ hf) base answers hat, hw ▸ h⟩

theorem latchWitnessed_frameStep {s : State} (h : s.Inv) (k : s.LatchWitnessed) (hf : s.phase.framed = true) :
    (frameStep s.frame s).LatchWitnessed := by
  obtain ⟨base, answers, hat, hl⟩ := k.2 hf
  by_cases hp : s.pos ≤ outLen s.frame s + readLen s.frame s
  · obtain ⟨mid, -⟩ := midFrame_step hp
    refine ⟨fun hn => by simp [mid.phase, hf] at hn, fun _ => ⟨base, _, frameAt_step hat hp, ?_⟩⟩
    rwa [mid.wel]
  · obtain ⟨-, -, last⟩ := closing_of_lt h hf (Nat.not_le.1 hp)
    obtain ⟨received, trace⟩ := frameAt_end hat (by simp only [frameEvents] at last; omega)
    have status : s.frame = .rdsr → answers = [s.lastSr] := by
      intro hr
      obtain ⟨sr, rfl⟩ := List.length_eq_one_iff.1 (received.trans (by simp [hr, readLen]))
      rw [hat.lastSr hr sr rfl]
    have evidence : LatchEvidence (closeFrame s.frame (csDeassert s)).wel (closeFrame s.frame (csDeassert s)).trace := by
      rw [closeFrame_wel, closeFrame_trace, csDeassert_trace, trace]
      exact latchEvidence_frame hl received status
    rw [frameStep_end _ _ (Nat.not_le.1 hp)]
    rcases frameEnd_complete_or_begin s.frame (s := closeFrame s.frame (csDeassert s)) rfl with
      ⟨c, e⟩ | ⟨p, g, e⟩ <;> rw [e]
    · exact latchWitnessed_unframed rfl evidence
    · exact latchWitnessed_begin p g evidence

theorem latchWitnessed_sequencerStep {s t : State} (h : s.Inv) (k : s.LatchWitnessed) (m : SequencerStep s t) :
    t.LatchWitnessed := by
  cases m with
  | validate hp e =>
    have evidence := k.1 (by simp [hp, Phase.framed])
    subst e
    rcases validate_complete_or_begin s.op s with ⟨c, e⟩ | ⟨p, f, e⟩ <;> rw [e]
    · exact latchWitnessed_unframed rfl evidence
    · exact latchWitnessed_begin p f evidence
  | wake hp ho e =>
    have clear : s.wel = .clear := h.asleep_clear (by simpa [State.wakeOK, hp] using h.wakes)
    subst e
    rcases wakeStep_cases ho s with ⟨-, e⟩ | ⟨-, e⟩ | ⟨-, p, f, e⟩ <;> rw [e]
    · exact latchWitnessed_unframed (by simp [hp, Phase.framed]) (by simp [clear, LatchEvidence])
    · exact latchWitnessed_unframed (by simp [hp, Phase.framed]) (by simp [clear, LatchEvidence])
    · exact latchWitnessed_begin p f (by simp [clear, LatchEvidence])
  | frame hf e => exact e ▸ latchWitnessed_frameStep h k hf
  | beginWrite hp e =>
    have begun := latchWitnessed_begin .writing .write (k.1 (by simp [hp, Phase.framed]))
    exact e ▸ latchWitnessed_frameStep (inv_beginWrite h hp) begun rfl
  | settle hp e =>
    have clear : s.wel = .clear := by simpa [State.welOK, hp] using h.wel_ok
    exact e ▸ latchWitnessed_unframed rfl (by simp [clear, LatchEvidence])

theorem latchWitnessed_devicePowerUp {s : State} (k : s.LatchWitnessed) : (devicePowerUp s).LatchWitnessed := by
  cases hd : s.device with
  | oracle l => rwa [devicePowerUp_oracle hd]
  | reference r =>
    rw [devicePowerUp_reference hd]
    exact k.of_same rfl rfl rfl fun _ _ _ hat => ⟨hat.trace, hat.received, hat.lastSr⟩

theorem latchWitnessed_step {s t : State} (h : s.Inv) (k : s.LatchWitnessed) (hs : step s = .next t) :
    t.LatchWitnessed := by
  obtain ⟨rest, turn⟩ := step_cases h hs
  have at_ : ∀ {base answers}, FrameAt base answers s → FrameAt base answers { s with schedule := rest } :=
    fun hat => ⟨hat.trace, hat.received, hat.lastSr⟩
  have hk : ({ s with schedule := rest } : State).LatchWitnessed := k.of_same rfl rfl rfl fun _ _ _ => at_
  have idle : ∀ {u : State}, s.busy = false → u.phase.framed = false → u.wel = s.wel → u.trace = s.trace →
      u.LatchWitnessed := by
    intro u hb hf hw ht
    refine latchWitnessed_unframed hf ?_
    rw [hw, ht]
    exact k.1 (by simp [idle_of h hb, Phase.framed])
  cases turn with
  | sequencer _ _ m => exact latchWitnessed_sequencerStep (inv_schedule h rest) hk m
  | restful _ _ e => exact e ▸ hk
  | read _ _ e | waitIdle _ e =>
    exact e ▸ k.of_same rfl rfl rfl fun _ _ _ hat => ⟨hat.trace, hat.received, hat.lastSr⟩
  | command _ w _ _ e =>
    subst e
    rcases commandWrite_cases (decodeOp w) { s with schedule := rest } with ⟨-, e⟩ | ⟨-, -, e⟩ | ⟨-, hb, e⟩ <;> rw [e]
    · exact hk
    · exact k.of_same rfl rfl rfl fun _ _ _ hat => ⟨hat.trace, hat.received, hat.lastSr⟩
    · exact idle hb rfl rfl rfl
  | write j w _ hj e =>
    subst e
    rw [hostWrite, if_neg hj]
    by_cases hb : s.busy = true
    · rw [if_pos hb]
      exact hk
    · have hp := idle_of h (Bool.not_eq_true _ ▸ hb)
      rw [if_neg hb]
      split_ifs <;> exact idle (by simpa using hb) (by simp [hp, Phase.framed]) rfl rfl
  | reset _ e | powerOn _ e => exact e ▸ latchWitnessed_unframed rfl trivial
  | devicePowerUp _ e => exact e ▸ latchWitnessed_devicePowerUp hk

theorem Reachable.latchWitnessed {s : State} (h : Reachable s) : s.LatchWitnessed := by
  induction h with
  | start turns d hd => exact latchWitnessed_unframed rfl trivial
  | step hr hs ih => exact latchWitnessed_step hr.inv ih hs

/-! ### Where a WRITE frame begins -/

/-- Only the sequencer makes chip-select fall. -/
theorem sequencerStep_of_opening {s t : State} (h : s.Inv) (hs : step s = .next t) (hclosed : s.isOpen = false)
    (hopen : t.isOpen = true) : ∃ rest, SequencerStep { s with schedule := rest } t := by
  obtain ⟨rest, turn⟩ := step_cases h hs
  have kept : t.isOpen = s.isOpen → ∃ rest, SequencerStep { s with schedule := rest } t := fun e => by
    simp [e, hclosed] at hopen
  cases turn with
  | sequencer _ _ m => exact ⟨rest, m⟩
  | restful _ _ e | read _ _ e | waitIdle _ e => exact kept (e ▸ rfl)
  | command _ w _ _ e =>
    refine kept ?_
    rcases commandWrite_cases (decodeOp w) { s with schedule := rest } with ⟨-, e'⟩ | ⟨-, -, e'⟩ | ⟨-, -, e'⟩ <;>
      simp [e, e']
  | write j w _ hj e =>
    refine kept ?_
    rw [e, hostWrite, if_neg hj]
    split_ifs <;> rfl
  | reset _ e | powerOn _ e =>
    subst e
    cases hopen
  | devicePowerUp _ e => exact kept (by simp [e])

/-- The sequencer opens a WRITE frame by the first event of one in progress, or by beginning WRITE_PAGE's (R70, R93). -/
theorem opensWrite_cases {s t : State} (m : SequencerStep s t) (hclosed : s.isOpen = false) (hopen : t.isOpen = true)
    (hw : t.frame = .write) (hp : t.phase.framed = true) :
    (s.phase.framed = true ∧ s.frame = .write ∧ s.pos = 0) ∨ s.phase = .writeEnableVerified := by
  cases m with
  | validate _ e =>
    subst e
    rcases validate_complete_or_begin s.op s with ⟨c, e⟩ | ⟨p, f, e⟩ <;> simp [e, hclosed] at hopen
  | wake hq ho e =>
    subst e
    rcases wakeStep_cases ho s with ⟨-, e⟩ | ⟨-, e⟩ | ⟨-, p, f, e⟩
    · simp [e, hq, Phase.framed] at hp
    · simp [e] at hopen
    · simp [e, hclosed] at hopen
  | frame hf e =>
    subst e
    rcases frameStep_cases s.frame s with ⟨h0, e⟩ | ⟨-, -, e⟩ | ⟨-, -, e⟩ | ⟨-, e⟩
    · exact .inl ⟨hf, by simpa [e] using hw, h0⟩
    · simp [e, hclosed] at hopen
    · simp [e, hclosed] at hopen
    · obtain ⟨-, -, -, ho, -⟩ := frameEnd_csUp s.frame s
      simp [e, ho] at hopen
  | beginWrite hq _ => exact .inr hq
  | settle _ e => simp [e, hclosed] at hopen

/-- A WRITE frame in progress belongs to a WRITE or a WRITE_PAGE whose latch is verified (R81). -/
theorem verified_of_write_frame {s : State} (h : s.Inv) (hf : s.phase.framed = true) (hw : s.frame = .write) :
    s.wel = .verified := by
  have owned := h.owned
  have wel := h.wel_ok
  cases hp : s.phase <;> simp_all [Phase.framed, phaseOwned, State.welOK]

/-- Settles O24: a WRITE frame begins at WL_VERIFIED (`State.Inv`), and the trace bears that out (`State.LatchWitnessed`). -/
theorem writeFramesFollowAConfirmingRdsr : Obligations.WriteFramesFollowAConfirmingRdsr := by
  intro s t hr hs hclosed hopen hw hp
  have h := hr.inv
  have evidence : s.wel = .verified ∧ LatchEvidence s.wel s.trace := by
    obtain ⟨rest, m⟩ := sequencerStep_of_opening h hs hclosed hopen
    rcases opensWrite_cases m hclosed hopen hw hp with ⟨hf, hfw, h0⟩ | hv
    · obtain ⟨base, answers, hat, evidence⟩ := hr.latchWitnessed.2 hf
      have trace : s.trace = base := by
        rw [hat.trace, show s.pos = 0 from h0]
        rfl
      exact ⟨verified_of_write_frame h hf hfw, trace ▸ evidence⟩
    · have hv : s.phase = .writeEnableVerified := hv
      exact ⟨by simpa [State.welOK, hv] using h.wel_ok, hr.latchWitnessed.1 (by simp [hv, Phase.framed])⟩
  obtain ⟨hwel, evidence⟩ := evidence
  rw [hwel] at evidence
  exact ⟨hwel, evidence⟩

end Sys2Proof.Machine
end

section
/-! The single-frame commands of the framer, event by event (41_command_framer.md R83 to R87), the table of the latch (R82),
and a step with MISUSE set (R79). -/

namespace Sys2Proof.Machine

/-! ### A command and its frame, event by event -/

/-- Frame `f` is in progress for the command that consists of it, and `i` is the command or the frame's own row. -/
structure SendsFrame (f : WireOp) (i : Instr) (s : State) : Prop where
  instr : i = f.command.instr ∨ i = f.instr
  op : s.op = f.command
  phase : s.phase = (bodyStart f.command).1
  frame : s.frame = f

namespace SendsFrame

variable {f : WireOp} {i : Instr} {s : State} (h : SendsFrame f i s)
include h

/-- The command and the frame's row make the same event (R46). -/
theorem exec_eq : exec i s = .next (frameStep f s) := by
  obtain ⟨owned, framed⟩ := phaseOwned_bodyStart f
  have hf : s.phase.framed = true := h.phase ▸ framed
  rcases h.instr with rfl | rfl
  · rw [← h.op, exec_latched_framed (by rw [h.op, h.phase, h.frame]; exact owned) hf, h.frame]
  · rw [exec_wire, runFrame_next f s hf h.frame]

theorem exec_csDown (h0 : s.pos = 0) : exec i s = .next { s with
    csN := false, isOpen := true, sclk := false, mosi := false, pos := 1
    device := s.device.csDown, trace := .csDown :: s.trace } := by
  rw [h.exec_eq, frameStep_csAssert f s h0]
  rfl

theorem exec_send {p : Nat} (hp : s.pos = p + 1) (hl : p < outLen f s) : exec i s = .next { s with
    sclk := false, mosi := false, pos := s.pos + 1
    device := s.device.receive (outByte f s p), draws := s.nextDraws, trace := .sent (outByte f s p) :: s.trace } := by
  rw [h.exec_eq, frameStep_send f s (by omega) (by omega), hp]
  rfl

/-- The last event moves the latch and completes the command with OK (R80, R82). -/
theorem exec_csUp (hp : outLen f s + readLen f s < s.pos) : exec i s = .next { s with
    csN := true, isOpen := false, sclk := false, mosi := false, pos := 0
    device := s.device.csUp, trace := .csUp :: s.trace
    wel := welAfter f s.lastSr s.wel, wakeNeeded := if f = .sleep then true else s.wakeNeeded
    result := .ok, done := true, busy := false, phase := .idle } := by
  have single : (closeFrame f (csDeassert s)).op ≠ .writePage := by
    rw [closeFrame_op, csDeassert_op, h.op]
    cases f <;> simp [WireOp.command]
  rw [h.exec_eq, frameStep_end f s hp, frameEnd_single f _ single]
  rfl

/-- A frame of its opcode alone. -/
theorem exec_opcode_frame (ho : outLen f s = 1) (hr : readLen f s = 0) :
    (s.pos = 0 → exec i s = .next { s with
      csN := false, isOpen := true, sclk := false, mosi := false, pos := 1
      device := s.device.csDown, trace := .csDown :: s.trace }) ∧
    (s.pos = 1 → exec i s = .next { s with
      sclk := false, mosi := false, pos := 2
      device := s.device.receive f.opcode, draws := s.nextDraws, trace := .sent f.opcode :: s.trace }) ∧
    (s.pos = 2 → exec i s = .next { s with
      csN := true, isOpen := false, sclk := false, mosi := false, pos := 0
      device := s.device.csUp, trace := .csUp :: s.trace
      wel := welAfter f s.lastSr s.wel, wakeNeeded := if f = .sleep then true else s.wakeNeeded
      result := .ok, done := true, busy := false, phase := .idle }) := by
  refine ⟨h.exec_csDown, fun h1 => ?_, fun h2 => h.exec_csUp (by omega)⟩
  rw [h.exec_send h1 (by omega), h1]
  rfl

end SendsFrame

/-- Settles O32. -/
theorem wrenSendsItsFrame : Obligations.WrenSendsItsFrame := by
  intro i s hi ho hp hf
  exact SendsFrame.exec_opcode_frame (f := .wren) ⟨hi, ho, hp, hf⟩ rfl rfl

/-- Settles O33. -/
theorem wrdiSendsItsFrame : Obligations.WrdiSendsItsFrame := by
  intro i s hi ho hp hf
  exact SendsFrame.exec_opcode_frame (f := .wrdi) ⟨hi, ho, hp, hf⟩ rfl rfl

/-- Settles O34: the third event is the read phase, and the latch follows bit 1 of the byte in LAST_SR. -/
theorem rdsrSendsItsFrame : Obligations.RdsrSendsItsFrame := by
  intro i s hi ho hp hf
  have h : SendsFrame .rdsr i s := ⟨hi, ho, hp, hf⟩
  refine ⟨h.exec_csDown, fun h1 => ?_, fun h2 => ?_, fun h3 => ?_⟩
  · rw [h.exec_send h1 Nat.one_pos, h1]
    rfl
  · rw [h.exec_eq, frameStep_recv .rdsr s (by simp [outLen, h2]) (by simp [outLen, readLen, h2]), h2]
    have single : s.phase ≠ .polling := by simp [hp]
    simp [keepByte, single, xferRecv]
  · have latch : welAfter .rdsr s.lastSr s.wel =
        if s.lastSr.getLsbD 1 = true then (if s.wel = .clear then .clear else .verified) else .clear := by
      cases s.wel <;> rfl
    rw [h.exec_csUp (by simp [outLen, readLen, h3]), latch]
    rfl

/-- Settles O35: the second byte sent is WRSR_DATA. -/
theorem wrsrSendsItsFrame : Obligations.WrsrSendsItsFrame := by
  intro i s hi ho hp hf
  have h : SendsFrame .wrsr i s := ⟨hi, ho, hp, hf⟩
  refine ⟨h.exec_csDown, fun h1 => ?_, fun h2 => ?_, fun h3 => ?_⟩
  · rw [h.exec_send h1 Nat.two_pos, h1]
    rfl
  · rw [h.exec_send h2 Nat.one_lt_two, h2]
    rfl
  · rw [h.exec_csUp (by simp [outLen, readLen, h3])]
    rfl

/-- Settles O37: each byte by its place in the layout of the frame. -/
theorem writeSendsItsFrame : Obligations.WriteSendsItsFrame := by
  intro i s hi ho hp hf
  have h : SendsFrame .write i s := ⟨hi, ho, hp, hf⟩
  have len : outLen .write s = 3 + s.len.toNat := rfl
  obtain ⟨opcode, addrHi, addrLo, data⟩ := outByte_write s
  refine ⟨h.exec_csDown, fun o hsent => ?_, fun hend => ?_⟩
  · have byte : ∃ p, s.pos = p + 1 ∧ p < outLen .write s ∧ outByte .write s p = o := by
      rcases hsent with ⟨hq, rfl⟩ | ⟨hq, rfl⟩ | ⟨hq, rfl⟩ | ⟨h4, hn, rfl⟩
      · exact ⟨0, hq, by omega, opcode⟩
      · exact ⟨1, hq, by omega, addrHi⟩
      · exact ⟨2, hq, by omega, addrLo⟩
      · exact ⟨s.pos - 4 + 3, by omega, by omega, data _⟩
    obtain ⟨p, hq, hl, rfl⟩ := byte
    exact h.exec_send hq hl
  · rw [h.exec_csUp (by simp only [len, readLen]; omega)]
    rfl

/-! ### The table of the latch -/

/-- The end of a frame moves the latch by its table (R82). -/
theorem frameStep_closing_wel {f : WireOp} {s : State} (hp : s.pos + 1 = frameEvents f s) :
    (frameStep f s).wel = welAfter f s.lastSr s.wel := by
  rw [frameStep_end f s (by simp only [frameEvents] at hp; omega)]
  rcases frameEnd_complete_or_begin f (s := closeFrame f (csDeassert s)) rfl with ⟨c, e⟩ | ⟨p, g, e⟩ <;> rw [e] <;> rfl

/-- The sequencer's turn, where a frame is in progress, is the frame's next event (R27). -/
theorem step_framed {s : State} (h : s.Inv) (hf : s.phase.framed = true) (hq : s.sequencerTurn) :
    ∃ l, step s = .next (frameStep s.frame { s with schedule := l }) := by
  have event : ∀ l, exec s.frame.instr { s with schedule := l } = .next (frameStep s.frame { s with schedule := l }) :=
    fun l => (exec_wire _ _).trans (runFrame_next s.frame { s with schedule := l } hf rfl)
  obtain ⟨silent, turn⟩ := stepRunsTheFrameInProgress s h hf
  rcases hq with hq | ⟨rest, hq⟩
  · exact ⟨s.schedule, (silent hq).trans (event s.schedule)⟩
  · exact ⟨rest, (turn rest hq).trans (event rest)⟩

/-- Settles O23: a closing step moves the latch by `welAfter`, and of the other steps none touches it. -/
theorem latchFollowsItsTable : Obligations.LatchFollowsItsTable := by
  intro s t h hs hr
  refine ⟨fun hq hc => ?_, fun hn => ?_⟩
  · obtain ⟨-, hf, last⟩ := hc
    obtain ⟨l, e⟩ := step_framed h hf hq
    cases e.symm.trans hs
    rw [frameStep_closing_wel (s := { s with schedule := l }) last]
    cases s.frame <;> simp_all [welAfter]
  · rcases step_flags h hs hr with kept | ⟨hq, -, m⟩ | ⟨k, w, rest, -, -, ⟨-, rfl⟩ | ⟨-, rfl⟩⟩
    · exact kept.wel
    · exact m.wel.resolve_right fun hc => hn ⟨hq, hc⟩
    · rfl
    · rfl

/-! ### A step with MISUSE set -/

/-- The state with MISUSE set. -/
def State.setMisuse (s : State) : State := { s with misuse := true }

@[simp] theorem State.setMisuse_phase (s : State) : s.setMisuse.phase = s.phase := rfl
@[simp] theorem State.setMisuse_pos (s : State) : s.setMisuse.pos = s.pos := rfl
@[simp] theorem State.setMisuse_frame (s : State) : s.setMisuse.frame = s.frame := rfl

theorem startOf_setMisuse (o : Op) (s : State) : startOf o s.setMisuse = (startOf o s).setMisuse := by
  cases o <;> rfl

theorem validate_setMisuse (o : Op) (s : State) :
    validate o (startOf o) s.setMisuse = (validate o (startOf o) s).setMisuse := by
  simp only [validate, startOf_setMisuse, apply_ite State.setMisuse]
  rfl

theorem wakeStep_setMisuse (o : Op) (s : State) :
    wakeStep (startOf o) s.setMisuse = (wakeStep (startOf o) s).setMisuse := by
  simp only [wakeStep, apply_ite State.setMisuse, ← startOf_setMisuse]
  rfl

theorem keepByte_setMisuse (f : WireOp) (j : Nat) (i : Byte) (s : State) :
    keepByte f j i s.setMisuse = (keepByte f j i s).setMisuse := by
  cases f
  case rdsr =>
    simp only [keepByte, apply_ite State.setMisuse]
    rfl
  all_goals rfl

theorem writePageNext_setMisuse (f : WireOp) (s : State) :
    writePageNext f s.setMisuse = (writePageNext f s).setMisuse := by
  simp only [writePageNext, State.setMisuse_phase]
  cases s.phase
  case writeEnabling | writing | polling =>
    simp only [apply_ite State.setMisuse]
    rfl
  all_goals rfl

theorem frameEnd_setMisuse (f : WireOp) (s : State) : frameEnd f s.setMisuse = (frameEnd f s).setMisuse := by
  simp only [frameEnd, apply_ite State.setMisuse, ← writePageNext_setMisuse]
  rfl

theorem frameStep_setMisuse (f : WireOp) (s : State) : frameStep f s.setMisuse = (frameStep f s).setMisuse := by
  have event : frameEvent f s.setMisuse s.pos = frameEvent f s s.pos := by cases f <;> rfl
  unfold frameStep
  rw [State.setMisuse_pos, event]
  cases frameEvent f s s.pos with
  | csAssert => rfl
  | send o => rfl
  | recv j => exact congrArg (fun t : State => { t with pos := s.pos + 1 }) (keepByte_setMisuse f j _ (xferRecv s))
  | csDeassert => exact frameEnd_setMisuse f (closeFrame f (csDeassert s))

/-- Settles O50, by what the instruction does at its position past acceptance. -/
theorem misuseDoesNotDisturbTheRunningCommand : Obligations.MisuseDoesNotDisturbTheRunningCommand := by
  intro i s t hn h
  show exec i s.setMisuse = .next t.setMisuse
  have page : s.phase = .writeEnableVerified ∨ s.phase = .settling →
      exec .writePage s.setMisuse = writePageBody s.setMisuse := by
    rintro (hp | hp) <;> exact exec_writePage_body _ (by simp [hp]) (by simp [hp]) (by simp [hp])
  rcases exec_cases h with ⟨o, -, hp, -⟩ | ⟨o, hi, hp, rfl⟩ | ⟨o, hi, ho, hp, rfl⟩ | ⟨hf, rfl⟩ | ⟨rfl, hp, rfl⟩ |
    ⟨rfl, hp, rfl⟩
  · exact absurd hp hn
  · rw [exec_accepted hi s.setMisuse hp, validate_setMisuse]
  · rw [exec_waking hi ho s.setMisuse hp, wakeStep_setMisuse]
  · rw [exec_framed_of_same (u := s.setMisuse) hf rfl rfl h, State.setMisuse_frame, frameStep_setMisuse]
  · rw [page (.inl hp)]
    simp only [writePageBody, State.setMisuse_phase, hp]
    rfl
  · rw [page (.inr hp)]
    simp only [writePageBody, State.setMisuse_phase, hp]
    rfl

end Sys2Proof.Machine
end

section
/-! The commands of the storage interface, event by event (42_storage_interface.md R89 to R95). -/

namespace Sys2Proof.Machine

/-! ### The wake pulse -/

/-- Settles O30. -/
theorem wakePulseIsThreeSteps : Obligations.WakePulseIsThreeSteps := by
  intro i o s hi ho hp
  rw [exec_waking hi ho s hp]
  refine ⟨fun h0 => ?_, fun h1 => ?_, fun h2 => ?_⟩
  · rw [wakeStep_csAssert _ h0]
    rfl
  · rw [wakeStep_csDeassert _ h1]
    rfl
  · rw [wakeStep_wait _ (by omega) (by omega), startOf_eq ho]
    rfl

/-! ### SLEEP, READ and RDID -/

/-- Settles O36. -/
theorem sleepSendsItsFrame : Obligations.SleepSendsItsFrame := by
  intro i s hi ho hp hf
  exact SendsFrame.exec_opcode_frame (f := .sleep) ⟨hi, ho, hp, hf⟩ rfl rfl

/-- Byte `j` of a READ or RDID frame's read phase goes to RDBUF[j], and to no other byte (R90, R91). -/
theorem SendsFrame.exec_store {f : WireOp} {i : Instr} {s : State} (h : SendsFrame f i s) (hf : f = .read ∨ f = .rdid)
    {j : Nat} (hj : j < readLen f s) (hj' : j < 1024) (hp : s.pos = 1 + outLen f s + j) :
    ∃ b, exec i s = .next { s with
      sclk := false, mosi := false, pos := s.pos + 1, rdbuf := b
      device := s.device.receive 0x00, draws := s.nextDraws, trace := .exchanged 0x00 s.misoByte :: s.trace } ∧
    ∀ x, Memory.read (Config.powerOnRdbuf s.powerOns) b x = if x = j then s.misoByte else s.rdByte x := by
  refine ⟨Buffer.put s.rdbuf j s.misoByte, ?_, fun x => ?_⟩
  · have index : s.pos - 1 - outLen f s = j := by omega
    rw [h.exec_eq, frameStep_recv f s (by omega) (by omega), index]
    rcases hf with rfl | rfl <;> rfl
  · simp only [Buffer.read_put, Config.bufferSize, hj', and_true]
    rfl

/-- The latch at the end of a frame that reads data (R82). -/
theorem welAfter_data {f : WireOp} (hf : f = .read ∨ f = .rdid) (sr : Byte) (w : Wel) :
    welAfter f sr w = if w = .clear then .clear else .requested := by
  rcases hf with rfl | rfl <;> cases w <;> rfl

/-- Settles O38: each event by its place in the layout of the frame. -/
theorem readSendsItsFrame : Obligations.ReadSendsItsFrame := by
  intro i s hi ho hp hf
  have h : SendsFrame .read i s := ⟨hi, ho, hp, hf⟩
  refine ⟨h.exec_csDown, fun o hsent => ?_, fun j hj hj' hq => h.exec_store (.inl rfl) hj hj' hq, fun hend => ?_⟩
  · have byte : ∃ p, s.pos = p + 1 ∧ p < 3 ∧ outByte .read s p = o := by
      rcases hsent with ⟨hq, rfl⟩ | ⟨hq, rfl⟩ | ⟨hq, rfl⟩
      · exact ⟨0, hq, by omega, rfl⟩
      · exact ⟨1, hq, by omega, rfl⟩
      · exact ⟨2, hq, by omega, rfl⟩
    obtain ⟨p, hq, hl, rfl⟩ := byte
    exact h.exec_send hq hl
  · rw [h.exec_csUp (by simp only [outLen, readLen]; omega), welAfter_data (.inl rfl)]
    rfl

/-- Settles O39: each event by its place in the layout of the frame. -/
theorem rdidSendsItsFrame : Obligations.RdidSendsItsFrame := by
  intro i s hi ho hp hf
  have h : SendsFrame .rdid i s := ⟨hi, ho, hp, hf⟩
  have len := s.cfg.idLen.isLt
  refine ⟨h.exec_csDown, fun h1 => ?_, fun j hj hq => h.exec_store (.inr rfl) hj (by omega) hq, fun hend => ?_⟩
  · rw [h.exec_send h1 Nat.one_pos, h1]
    rfl
  · rw [h.exec_csUp (by simp only [outLen, readLen]; omega), welAfter_data (.inr rfl)]
    rfl

/-! ### WRITE_PAGE -/

/-- The last event of a frame of WRITE_PAGE, for the command and the frame's row (R69, R93). -/
theorem exec_page_end {f : WireOp} {i : Instr} {s : State} (hi : i = .writePage ∨ i = f.instr) (hop : s.op = .writePage)
    (ho : phaseOwned .writePage s.phase f) (hf : s.phase.framed = true) (hfr : s.frame = f)
    (hp : s.pos = 1 + outLen f s + readLen f s) :
    exec i s = .next (frameEnd f (closeFrame f (csDeassert s))) := by
  subst hfr
  rw [exec_page_frame hi hop ho hf, frameStep_end _ _ (by omega)]

/-- Settles O40: the end of either frame moves the latch, and bit 1 of LAST_SR decides the verification. -/
theorem writePageVerifiesOnce : Obligations.WritePageVerifiesOnce := by
  intro s hop hp
  have framed : s.phase.framed = true := by rw [hp]; rfl
  refine ⟨fun i hi hf h2 => ?_, fun i hi hf h3 hw => ?_⟩
  · rw [exec_page_end hi hop (by simp [hp, phaseOwned]) framed hf h2,
      frameEnd_page_wren (closeFrame .wren (csDeassert s)) hop hp]
    rfl
  · rw [exec_page_end hi hop (by simp [hp, phaseOwned]) framed hf h3,
      frameEnd_page_verify (closeFrame .rdsr (csDeassert s)) hop hp]
    refine ⟨fun hb => ?_, fun hb => ?_⟩
    · have latch : welBit s.lastSr = false := hb
      simp [latch, closeFrame, csDeassert, complete, welAfter]
    · have latch : welBit s.lastSr = true := hb
      simp [latch, closeFrame, csDeassert, welAfter, hw]

/-- Settles O41. -/
theorem writePageWritesThenWaits : Obligations.WritePageWritesThenWaits := by
  intro s hop
  refine ⟨fun hp => ?_, fun i hi hp hf hend => ?_, fun hp => ?_⟩
  · rw [exec_writePage_body s (by simp [hp]) (by simp [hp]) (by simp [hp])]
    simp only [writePageBody, hp, beginWrite_eq]
    rfl
  · rw [exec_page_end hi hop (by simp [hp, phaseOwned]) (by rw [hp]; rfl) hf (by simp only [outLen, readLen]; omega),
      frameEnd_page_write .write (closeFrame .write (csDeassert s)) hop hp]
    refine ⟨fun hb => ?_, fun hb => ?_⟩ <;> simp [hb, closeFrame, csDeassert, beginBody, welAfter]
  · rw [exec_writePage_body s (by simp [hp]) (by simp [hp]) (by simp [hp])]
    simp only [writePageBody, hp]
    rfl

/-- What a poll's CS↑ leaves, before the poller decides: from WL_CLEAR, whatever the status byte, the latch stays there
(R82). -/
theorem closeFrame_poll {s : State} (hw : s.wel = .clear) : closeFrame .rdsr (csDeassert s) = { s with
    csN := true, isOpen := false, sclk := false, mosi := false, pos := 0
    device := s.device.csUp, trace := .csUp :: s.trace } := by
  have latch : welAfter .rdsr s.lastSr s.wel = s.wel := by rw [hw, welAfter_clear _ _ (by simp)]
  simp [closeFrame, csDeassert, latch]

/-- Settles O43: the received byte is counted; at CS↑ bit 1 of LAST_SR and the count decide. -/
theorem pollerIsBounded : Obligations.PollerIsBounded := by
  intro i s hi hop hp hf hw
  have owned : phaseOwned .writePage s.phase .rdsr := by simp [hp, phaseOwned]
  have framed : s.phase.framed = true := by rw [hp]; rfl
  have ends (h3 : s.pos = 3) := exec_page_end hi hop owned framed hf h3
  rw [frameEnd_page_poll .rdsr (closeFrame .rdsr (csDeassert s)) hop hp, closeFrame_poll hw] at ends
  refine ⟨fun h2 => ?_, fun h3 hb => ?_, fun h3 hb hk => ?_, fun h3 hb hk => ?_⟩
  · rw [exec_page_frame (hf ▸ hi) hop (hf ▸ owned) framed, hf,
      frameStep_recv .rdsr s (by simp [outLen, h2]) (by simp [outLen, readLen, h2]), h2]
    simp [keepByte, hp, hf, xferRecv]
  · have sr : welBit s.lastSr = false := hb
    simp [ends h3, sr, complete]
  · have sr : welBit s.lastSr = true := hb
    simp [ends h3, sr, hk, Cfg.pollBound, complete]
  · have sr : welBit s.lastSr = true := hb
    simp [ends h3, sr, hk, Cfg.pollBound]

end Sys2Proof.Machine
end

section
/-! A whole frame against the device (40_bus_transport.md R66, R71): what the device has heard at each of its events, and
the bytes the block received from it. -/

namespace Sys2Proof.Machine

/-! ### Runs -/

theorem inv_run {n : Nat} {s t : State} (h : s.Inv) (hr : s.run n = .next t) : t.Inv := by
  induction n generalizing s with
  | zero => exact Host.Outcome.next.inj hr ▸ h
  | succ n ih =>
    obtain ⟨u, hs, hu⟩ := State.run_succ_eq_next hr
    exact ih (inv_step h hs) hu

/-- The last step of a run. -/
theorem State.run_snoc {n : Nat} {s t : State} (h : s.run n = .next t) : s.run (n + 1) = step t := by
  rw [State.run_add h]
  cases hs : step t with
  | next u => rw [State.run_succ hs, State.run_zero]
  | fault r | refused r =>
    simp only [State.run, Host.Core.run, show Sys2Proof.core.step t = _ from hs]
    rfl

/-! ### What a frame puts on the bus -/

/-- The bytes that `mosi` carries in a frame: those it sends, and 0x00 for each byte it reads (R55, R71). -/
def mosiBytes (f : WireOp) (s : State) : List Byte := outBytes f s ++ List.replicate (readLen f s) 0

theorem mosiBytes_congr {s t : State} (h : SameOperands s t) (f : WireOp) : mosiBytes f t = mosiBytes f s := by
  rw [mosiBytes, mosiBytes, outBytes_congr h, readLen_congr f h.len h.cfg]

theorem mosiBytes_length (f : WireOp) (s : State) : (mosiBytes f s).length = outLen f s + readLen f s := by
  simp [mosiBytes, outBytes_length]

theorem mosiBytes_sent {f : WireOp} {s : State} {p : Nat} (hp : p < outLen f s) :
    (mosiBytes f s)[p]? = some (outByte f s p) := by
  rw [mosiBytes, List.getElem?_append_left (by rwa [outBytes_length])]
  simp [outBytes, hp]

theorem mosiBytes_read {f : WireOp} {s : State} {p : Nat} (h1 : outLen f s ≤ p) (h2 : p < outLen f s + readLen f s) :
    (mosiBytes f s)[p]? = some 0 := by
  rw [mosiBytes, List.getElem?_append_right (by rwa [outBytes_length]), outBytes_length,
    List.getElem?_replicate_of_lt (by omega)]

/-- The device after it has received the bytes `l`, one `Xfer` each. -/
def Device.receiveAll (l : List Byte) (d : Device) : Device := l.foldl (fun d o => d.receive o) d

@[simp] theorem Device.receiveAll_nil (d : Device) : d.receiveAll [] = d := rfl

@[simp] theorem Device.receiveAll_cons (o : Byte) (l : List Byte) (d : Device) :
    d.receiveAll (o :: l) = (d.receive o).receiveAll l := rfl

/-- The device that saw chip-select fall and then received the bytes `l`. -/
def Device.heard (l : List Byte) (d : Device) : Device := d.csDown.receiveAll l

theorem Device.heard_append (l : List Byte) (o : Byte) (d : Device) : d.heard (l ++ [o]) = (d.heard l).receive o := by
  simp [Device.heard, Device.receiveAll]

/-- The device after the first events of a frame whose `mosi` bytes are `l`: none of them, or chip-select's fall and bytes
of `l`. -/
def Device.during (l : List Byte) : Nat → Device → Device
  | 0, d => d
  | p + 1, d => d.heard (l.take p)

theorem Device.during_succ {l : List Byte} {p : Nat} {o : Byte} (h : l[p]? = some o) (d : Device) :
    d.during l (p + 2) = (d.during l (p + 1)).receive o := by
  rw [Device.during, Device.during, List.take_add_one, h, Option.toList_some, Device.heard_append]

/-! ### A frame in progress -/

/-- The sequencer is about to begin a frame, with no host turn pending. -/
structure FrameBegins (b : State) : Prop where
  owned : phaseOwned b.op b.phase b.frame
  framed : b.phase.framed = true
  busy : b.busy = true
  silent : b.hostSilent
  pos : b.pos = 0
  reads : readLen b.frame b ≤ 1024

/-- Whatever each event but the last keeps holds all through the frame. -/
theorem FrameBegins.keeps {b : State} (h : FrameBegins b) {P : State → Prop} (begins : P b)
    (next : ∀ t, MidFrame b t → t.pos ≤ outLen b.frame b + readLen b.frame b → P t → P (frameStep b.frame t))
    {n : Nat} (hn : n ≤ 1 + outLen b.frame b + readLen b.frame b) :
    ∃ t, b.run n = .next t ∧ t.pos = n ∧ MidFrame b t ∧ step t = .next (frameStep b.frame t) ∧ P t := by
  obtain ⟨t, -, run, pos, mid, -, -⟩ := run_frame h.owned h.framed h.busy h.silent h.pos h.reads hn
  have event : step t = .next (frameStep b.frame t) := by
    rw [step_sequencer (mid.busy.trans h.busy) (mid.operands.schedule.trans h.silent), ← mid.frame]
    exact exec_latched_framed (by rw [mid.op, mid.phase, mid.frame]; exact h.owned) (by rw [mid.phase]; exact h.framed)
  refine ⟨t, run, pos, mid, event, ?_⟩
  cases n with
  | zero => exact Host.Outcome.next.inj run ▸ begins
  | succ n =>
    obtain ⟨r, run', pos', mid', event', kept⟩ := h.keeps begins next (n := n) (by omega)
    rw [State.run_snoc run', event'] at run
    exact Host.Outcome.next.inj run ▸ next r mid' (by omega) kept

/-- `t` is inside the frame that `b` begins: what the device has heard, whether the poll in progress has been counted, and
where each byte received so far came from. -/
structure HeardSoFar (b t : State) : Prop where
  device : t.device = b.device.during (mosiBytes b.frame b) t.pos
  k : t.k = if b.frame = .rdsr ∧ b.phase = .polling ∧ 2 < t.pos then b.k + 1 else b.k
  status : b.frame = .rdsr → 2 < t.pos → ∃ n, t.lastSr = (b.device.heard (outBytes .rdsr b)).answer n
  data : b.frame = .read ∨ b.frame = .rdid → ∀ j, 1 + outLen b.frame b + j < t.pos →
    ∃ n, t.rdByte j = (b.device.heard ((mosiBytes b.frame b).take (outLen b.frame b + j))).answer n

theorem heardSoFar_begin {b : State} (h0 : b.pos = 0) : HeardSoFar b b where
  device := by rw [h0]; rfl
  k := by simp [h0]
  status _ h := by omega
  data _ j h := by omega

theorem heardSoFar_step {b t : State} (mid : MidFrame b t) (hp : t.pos ≤ outLen b.frame b + readLen b.frame b)
    (hr : readLen b.frame b ≤ 1024) (k : HeardSoFar b t) : HeardSoFar b (frameStep b.frame t) := by
  obtain ⟨device, count, status, data⟩ := k
  have bytes := mosiBytes_congr mid.operands b.frame
  have len : outLen b.frame t = outLen b.frame b := outLen_congr _ mid.operands.len
  have reads : readLen b.frame t = readLen b.frame b := readLen_congr _ mid.operands.len mid.operands.cfg
  have pos : (frameStep b.frame t).pos = t.pos + 1 := by
    have := (midFrame_step (s := t) (by rwa [mid.frame, len, reads])).2
    rwa [mid.frame] at this
  rcases frameStep_cases b.frame t with ⟨h0, e⟩ | ⟨h1, hl, e⟩ | ⟨h1, hl, e⟩ | ⟨h1, -⟩
  · rw [h0] at device count pos
    refine ⟨?_, ?_, fun _ h => by omega, fun _ j h => by omega⟩
    · rw [pos, e]
      exact congrArg Device.csDown device
    · have kept : (frameStep b.frame t).k = t.k := by rw [e]; rfl
      rw [pos, kept, count]
      simp
  · obtain ⟨p, hq⟩ : ∃ p, t.pos = p + 1 := ⟨t.pos - 1, by omega⟩
    have early : b.frame = .rdsr → p = 0 := by
      intro hf
      simp only [hf, outLen] at hl
      omega
    rw [hq] at device count pos
    refine ⟨?_, ?_, fun hf h => by have := early hf; omega, fun _ j h => by omega⟩
    · rw [pos, Device.during_succ (bytes ▸ mosiBytes_sent (by omega)), ← device, e, hq]
      rfl
    · have kept : (frameStep b.frame t).k = t.k := by rw [e]; rfl
      rw [pos, kept, count]
      by_cases hf : b.frame = .rdsr
      · simp [early hf]
      · simp [hf]
  · obtain ⟨p, hq⟩ : ∃ p, t.pos = p + 1 := ⟨t.pos - 1, by omega⟩
    have place : b.frame = .rdsr → p = 1 := by
      intro hf
      simp only [hf, outLen, readLen] at h1 hl
      omega
    have event := frameEvent_recv b.frame t h1 hl
    rw [hq] at device count pos event
    have miso : t.misoByte = (b.device.heard ((mosiBytes b.frame b).take p)).answer t.draws := by
      rw [State.misoByte, device]
      rfl
    refine ⟨?_, ?_, fun hf _ => ⟨t.draws, ?_⟩, fun hf j hj => ?_⟩
    · have received : (frameStep b.frame t).device = t.device.receive 0 := by rw [e]; simp
      rw [pos, Device.during_succ (bytes ▸ mosiBytes_read (by omega) (by omega)), ← device, received]
    · have counted : (frameStep b.frame t).k = if b.frame = .rdsr ∧ b.phase = .polling then t.k + 1 else t.k := by
        rw [e]
        simp [keepByte_k, mid.phase]
      rw [pos, counted, count]
      by_cases hf : b.frame = .rdsr
      · simp [hf, place hf]
      · simp [hf]
    · have stored : (frameStep b.frame t).lastSr = t.misoByte := by
        rw [e]
        simp [keepByte_lastSr, hf]
      rw [stored, miso, place hf, hf]
      rfl
    · rw [frameStep_rdByte, hq, event]
      by_cases hj' : 1 + outLen b.frame b + j < p + 1
      · obtain ⟨n, hn⟩ := data hf j (hq ▸ hj')
        have old : p + 1 - 1 - outLen b.frame t ≠ j := by omega
        refine ⟨n, ?_⟩
        rw [if_neg fun h => old (FrameEvent.recv.inj h.2.1), hn]
      · have new : p + 1 - 1 - outLen b.frame t = j ∧ p = outLen b.frame b + j := by omega
        refine ⟨t.draws, ?_⟩
        rw [if_pos ⟨hf, congrArg _ new.1, by omega⟩, miso, new.2]
  · omega

/-! ### The whole frame -/

/-- `u` is the state after frame `f` was sent whole, with the operands of `s`, to the device `d`. -/
structure FrameHeard (f : WireOp) (s : State) (d : Device) (u : State) : Prop where
  device : u.device = (d.heard (mosiBytes f s)).csUp
  status : f = .rdsr → ∃ n, u.lastSr = (d.heard (outBytes .rdsr s)).answer n
  data : f = .read ∨ f = .rdid → ∀ j, j < readLen f s →
    ∃ n, u.rdByte j = (d.heard ((mosiBytes f s).take (outLen f s + j))).answer n

theorem FrameHeard.of_sameOperands {f : WireOp} {s b u : State} {d : Device} (h : FrameHeard f b d u)
    (k : SameOperands s b) : FrameHeard f s d u where
  device := by rw [h.device, mosiBytes_congr k]
  status hf := by rw [← outBytes_congr k]; exact h.status hf
  data hf j hj := by
    rw [← mosiBytes_congr k, ← outLen_congr f k.len]
    exact h.data hf j (by rwa [readLen_congr f k.len k.cfg])

/-- A whole frame: the device has heard it, the bytes received are the device's answers, and a poll has been counted. -/
theorem FrameBegins.heard {b u : State} (h : FrameBegins b) (hu : b.run (frameEvents b.frame b) = .next u) :
    FrameHeard b.frame b b.device u ∧ u.k = if b.frame = .rdsr ∧ b.phase = .polling then b.k + 1 else b.k := by
  obtain ⟨t, run, pos, mid, event, device, k, status, data⟩ :=
    h.keeps (heardSoFar_begin h.pos) (fun t mid hp => heardSoFar_step mid hp h.reads) le_rfl
  have len : outLen b.frame t = outLen b.frame b := outLen_congr _ mid.operands.len
  have reads : readLen b.frame t = readLen b.frame b := readLen_congr _ mid.operands.len mid.operands.cfg
  have last : frameStep b.frame t = u := by
    rw [show frameEvents b.frame b = 1 + outLen b.frame b + readLen b.frame b + 1 by simp only [frameEvents]; omega,
      State.run_snoc run, event] at hu
    exact Host.Outcome.next.inj hu
  have stored := frameStep_rdByte b.frame t
  rw [last, frameEvent_end _ _ (by omega)] at stored
  rw [frameStep_end _ _ (by omega)] at last
  obtain ⟨-, -, -, -, -, -, -, -, -, -, hsr, -, hk, -, -, hd, -⟩ := frameEnd_kept b.frame (closeFrame b.frame (csDeassert t))
  rw [last] at hsr hk hd
  have counted : b.frame = .rdsr → 2 < t.pos := by
    intro hf
    simp [pos, hf, outLen, readLen]
  refine ⟨⟨?_, fun hf => ?_, fun hf j hj => ?_⟩, ?_⟩
  · rw [hd, closeFrame_device, csDeassert_device, device, pos, Nat.add_assoc, Nat.add_comm 1, Device.during,
      ← mosiBytes_length, List.take_length]
  · obtain ⟨n, hn⟩ := status hf (counted hf)
    exact ⟨n, hsr.trans hn⟩
  · obtain ⟨n, hn⟩ := data hf j (by omega)
    exact ⟨n, by simpa [stored] using hn⟩
  · rw [hk, closeFrame_k, csDeassert_k, k]
    by_cases hf : b.frame = .rdsr
    · simp [counted hf]
    · simp [hf]

end Sys2Proof.Machine
end

section
/-! WRITE_PAGE whole (42_storage_interface.md R93 to R96, 70_reset_and_hazards.md R125): its frames one after the other, the
decision at the end of each, and the bounded series of polls. -/

namespace Sys2Proof.Machine

/-! ### What WRITE_PAGE keeps -/

/-- `b` is a state of a WRITE_PAGE that was accepted in `s`, with the host silent: the command changes neither the operands
nor MISUSE nor RDBUF. -/
structure PageKept (s b : State) : Prop where
  inv : b.Inv
  op : b.op = .writePage
  silent : b.hostSilent
  operands : SameOperands s b
  misuse : b.misuse = s.misuse
  rdbuf : b.rdbuf = s.rdbuf

theorem frameStep_rdbuf {f : WireOp} (hf : ¬(f = .read ∨ f = .rdid)) (s : State) : (frameStep f s).rdbuf = s.rdbuf := by
  rcases frameStep_cases f s with ⟨-, e⟩ | ⟨-, -, e⟩ | ⟨-, -, e⟩ | ⟨-, e⟩ <;> rw [e]
  · rfl
  · rfl
  · simp [keepByte_rdbuf, hf]
  · obtain ⟨-, -, -, -, -, h, -⟩ := frameEnd_kept f (closeFrame f (csDeassert s))
    exact h

/-- WRITE_PAGE sends no frame that reads into RDBUF (R93). -/
theorem page_frames {b : State} (h : b.Inv) (hop : b.op = .writePage) (hf : b.phase.framed = true) :
    b.frame = .wren ∨ b.frame = .rdsr ∨ b.frame = .write := by
  have owned := h.owned
  rw [hop] at owned
  cases hp : b.phase <;> simp_all [Phase.framed, phaseOwned]
  case writeEnabling => tauto

theorem sequencerStep_rdbuf {b u : State} (h : b.Inv) (hop : b.op = .writePage) (m : SequencerStep b u) :
    u.rdbuf = b.rdbuf := by
  cases m with
  | validate hp e =>
    rcases validate_complete_or_begin b.op b with ⟨c, v⟩ | ⟨p, f, v⟩ <;> rw [e, v] <;> rfl
  | wake hp ho e => rcases wakeStep_cases ho b with ⟨-, v⟩ | ⟨-, v⟩ | ⟨-, p, f, v⟩ <;> rw [e, v] <;> rfl
  | frame hf e =>
    rw [e, frameStep_rdbuf]
    rcases page_frames h hop hf with hf | hf | hf <;> simp [hf]
  | beginWrite hp e => rw [e, beginWrite_eq]; rfl
  | settle hp e => rw [e]; rfl

theorem pageKept_step {s b u : State} (h : PageKept s b) (hs : step b = .next u) : PageKept s u := by
  cases hb : b.busy with
  | true =>
    have hp := h.inv.busy_running.1 hb
    have run : exec b.op.instr b = .next u := (step_sequencer hb h.silent).symm.trans hs
    obtain ⟨operands, kept⟩ := instructionsKeepTheHostsRegisters _ _ _ run
    exact ⟨inv_step h.inv hs, (kept hp).1.trans h.op, operands.schedule.trans h.silent, h.operands.trans operands,
      (kept hp).2.trans h.misuse, (sequencerStep_rdbuf h.inv h.op (sequencerStep_of_exec hp run)).trans h.rdbuf⟩
  | false =>
    have silent : b.schedule = [] := h.silent
    have rest : step b = .next b := by simp [step, fetch, fetchLatched, silent, hb]
    exact Host.Outcome.next.inj (rest.symm.trans hs) ▸ h

theorem pageKept_run {n : Nat} {s b u : State} (h : PageKept s b) (hr : b.run n = .next u) : PageKept s u := by
  induction n generalizing b with
  | zero => exact Host.Outcome.next.inj hr ▸ h
  | succ n ih =>
    obtain ⟨c, hs, hc⟩ := State.run_succ_eq_next hr
    exact ih (pageKept_step h hs) hc

/-- The sequencer's step of a running WRITE_PAGE. -/
theorem PageKept.step_eq {s b : State} (h : PageKept s b) (hb : b.busy = true) : step b = exec .writePage b := by
  rw [step_sequencer hb h.silent, h.op]
  rfl

/-! ### One frame of WRITE_PAGE -/

/-- `b` is about to begin frame `f` of the WRITE_PAGE accepted in `s`, in phase `p`. -/
structure PageFrame (s b : State) (p : Phase) (f : WireOp) : Prop extends PageKept s b where
  phase : b.phase = p
  frame : b.frame = f
  pos : b.pos = 0

/-- `c` is what frame `f` of a WRITE_PAGE leaves that began it in `b`, before the command decides how it goes on. -/
structure FrameClosed (f : WireOp) (s b c : State) (answers : List Byte) : Prop where
  op : c.op = .writePage
  phase : c.phase = b.phase
  frame : c.frame = b.frame
  csN : c.csN = true
  pos : c.pos = 0
  wakeNeeded : c.wakeNeeded = false
  wel : c.wel = welAfter f c.lastSr b.wel
  cfg : c.cfg = s.cfg
  received : answers.length = readLen f s
  lastSr : c.lastSr = if f = .rdsr then answers.getD 0 0 else b.lastSr
  k : c.k = if f = .rdsr ∧ b.phase = .polling then b.k + 1 else b.k
  busTrace : c.busTrace = b.busTrace ++ frameTrace f s answers

theorem frameTrace_congr {s b : State} (h : SameOperands s b) (f : WireOp) (answers : List Byte) :
    frameTrace f b answers = frameTrace f s answers := by
  rw [frameTrace, frameTrace, outBytes_congr h]

/-- While a frame is in progress, WAKE_NEEDED is clear (R77, R89). -/
theorem wakeNeeded_of_framed {b : State} (h : b.Inv) (hf : b.phase.framed = true) : b.wakeNeeded = false := by
  have awake := h.wakes
  cases hp : b.phase <;> simp only [hp, State.wakeOK, Phase.framed, Bool.false_eq_true] at awake hf <;> exact awake

/-- Where a command past validation is at the start of a frame that WRITE_PAGE owns, the frame begins. -/
theorem PageFrame.begins {s b : State} {p : Phase} {f : WireOp} (h : PageFrame s b p f) (hp : p.framed = true) :
    FrameBegins b where
  owned := h.inv.owned
  framed := h.phase ▸ hp
  busy := busy_of_framed h.inv (h.phase ▸ hp)
  silent := h.silent
  pos := h.pos
  reads := by rcases page_frames h.inv h.op (h.phase ▸ hp) with e | e | e <;> simp [e, readLen]

/-- A whole frame of WRITE_PAGE, up to the command's decision at its end. -/
theorem PageFrame.run_frame {s b : State} {p : Phase} {f : WireOp} (h : PageFrame s b p f) (hp : p.framed = true) :
    ∃ c answers, b.run (frameEvents f s) = .next (frameEnd f c) ∧ FrameClosed f s b c answers ∧
      PageKept s (frameEnd f c) ∧ FrameHeard f s b.device (frameEnd f c) := by
  have begins := h.begins hp
  obtain ⟨t, answers, run, received, mid, -, lastSr, trace⟩ := run_whole_frame begins.owned begins.framed begins.busy
    begins.silent begins.pos begins.reads
  obtain ⟨heard, k⟩ := begins.heard run
  have kept := pageKept_run h.toPageKept run
  have notSleep : f ≠ .sleep := by
    rcases page_frames h.inv h.op begins.framed with e | e | e <;> simp [← h.frame, e]
  obtain ⟨-, -, -, -, -, -, -, -, -, -, -, -, hk, -⟩ := frameEnd_kept b.frame (closeFrame b.frame (csDeassert t))
  rw [hk] at k
  rw [h.frame] at run received lastSr trace heard k kept
  rw [frameEvents_congr f h.operands.len h.operands.cfg] at run
  refine ⟨closeFrame f (csDeassert t), answers, run, ?_, kept, heard.of_sameOperands h.operands⟩
  exact {
    op := mid.op.trans h.op
    phase := mid.phase
    frame := mid.frame
    csN := rfl
    pos := rfl
    wakeNeeded := by simp [notSleep, mid.wakeNeeded, wakeNeeded_of_framed h.inv begins.framed]
    wel := by simp [mid.wel]
    cfg := mid.operands.cfg.trans h.operands.cfg
    received := received.trans (readLen_congr f h.operands.len h.operands.cfg)
    lastSr := by
      split
      case isTrue hf => exact lastSr hf
      case isFalse hf => exact mid.lastSr (h.frame ▸ hf)
    k := k
    busTrace := trace.trans (by rw [frameTrace_congr h.operands]) }

/-! ### The stages of the command -/

/-- WRITE_PAGE has completed with result `r` (R80, R93). -/
structure PageDone (t : State) (r : Result) : Prop where
  busy : t.busy = false
  done : t.done = true
  csN : t.csN = true
  wel : t.wel = .clear
  wakeNeeded : t.wakeNeeded = false
  result : t.result = r

theorem FrameClosed.complete {f : WireOp} {s b c : State} {answers : List Byte} (h : FrameClosed f s b c answers)
    (hw : c.wel = .clear) (r : Result) : PageDone (complete r c) r :=
  ⟨rfl, rfl, h.csN, hw, h.wakeNeeded, rfl⟩

/-- The device at the start of a command's body: it has seen the wake pulse if there was one (R89). -/
def State.deviceWoken (s : State) : Device := if s.wakeNeeded then s.device.csDown.csUp else s.device

theorem run_to_body_device {o : Op} {s b : State} (ho : o ≠ .illegal) (h : s.Ready o)
    (hr : s.run (1 + s.wakeSteps) = .next b) : b.device = s.deviceWoken := by
  obtain ⟨silent, busy, rfl, accepted, range, latch⟩ := h
  have first : step s = .next (if s.wakeNeeded then { s with phase := .waking, pos := 0 } else startOf s.op s) := by
    rw [step_sequencer busy silent, exec_accepted (Op.op?_instr _) s accepted, validate_pass _ ho range latch]
  rw [Nat.add_comm, State.run_succ first] at hr
  cases hw : s.wakeNeeded with
  | false =>
    simp only [hw, State.wakeSteps, Bool.false_eq_true, if_false, State.run_zero, startOf_eq ho] at hr
    simp [← Host.Outcome.next.inj hr, State.deviceWoken, hw]
  | true =>
    have pulse := run_wakePulse (s := { s with phase := .waking, pos := 0 }) busy silent ho rfl rfl
    simp only [hw, State.wakeSteps, if_true] at hr
    rw [hw, hr, startOf_eq ho] at pulse
    simp [Host.Outcome.next.inj pulse, State.deviceWoken, hw]

/-- Validation, the wake pulse when it is needed, and the WREN frame. -/
theorem run_page_enable {s : State} (h : s.Inv) (ready : s.Ready .writePage) :
    ∃ b, s.run (1 + s.wakeSteps + 3) = .next b ∧ PageFrame s b .writeEnabling .rdsr ∧
      b.busTrace = s.busTrace ++ s.wakeTrace ++ frameTrace .wren s [] ∧ FrameHeard .wren s s.deviceWoken b := by
  obtain ⟨b, wake, begun⟩ := run_to_body (by simp) ready
  have accepted : PageKept s s :=
    ⟨h, ready.latched, ready.silent, ⟨rfl, rfl, rfl, rfl, rfl, rfl, rfl, rfl⟩, rfl, rfl⟩
  have begins : PageFrame s b .writeEnabling .wren :=
    { pageKept_run accepted wake with phase := begun.phase, frame := begun.frame, pos := begun.pos }
  obtain ⟨c, answers, run, closed, kept, heard⟩ := begins.run_frame rfl
  have none : answers = [] := List.length_eq_zero_iff.1 closed.received
  have next := frameEnd_page_wren c closed.op (closed.phase.trans begins.phase)
  rw [next] at run kept heard
  rw [run_to_body_device (by simp) ready wake] at heard
  have verifies : PageFrame s { c with frame := .rdsr } .writeEnabling .rdsr :=
    { kept with phase := closed.phase.trans begins.phase, frame := rfl, pos := closed.pos }
  exact ⟨_, (State.run_add wake).trans run, verifies, closed.busTrace.trans (by rw [begun.busTrace, none]), heard⟩

/-- The verify RDSR frame: bit 1 of the byte received ends the command or lets it write (R94). -/
theorem run_page_verify {s b : State} (h : PageFrame s b .writeEnabling .rdsr) :
    ∃ u, b.run 4 = .next u ∧ PageKept s u ∧ u.busTrace = b.busTrace ++ frameTrace .rdsr s [u.lastSr] ∧
      FrameHeard .rdsr s b.device u ∧
      (welBit u.lastSr = false → PageDone u .writeNotEnabled ∧ u.pollCount = 0) ∧
      (welBit u.lastSr = true → u.phase = .writeEnableVerified) := by
  obtain ⟨c, answers, run, closed, kept, heard⟩ := h.run_frame rfl
  obtain ⟨sr, rfl⟩ := List.length_eq_one_iff.1 closed.received
  have status : c.lastSr = sr := closed.lastSr
  have counted : c.k = 0 := by
    have polls := h.inv.polls
    simp only [State.pollsOK, h.phase] at polls
    simp [closed.k, h.phase, polls.2.2]
  have trace : c.busTrace = b.busTrace ++ frameTrace .rdsr s [c.lastSr] := by rw [status, closed.busTrace]
  have next := frameEnd_page_verify c closed.op (closed.phase.trans h.phase)
  rw [next] at run kept heard
  cases hv : welBit c.lastSr with
  | false =>
    rw [hv, if_neg (by simp)] at run kept heard
    have clear : c.wel = .clear := by simp [closed.wel, welAfter, hv]
    have hv' : ¬welBit (complete .writeNotEnabled c).lastSr = true := by simp [hv]
    exact ⟨_, run, kept, trace, heard, fun _ => ⟨closed.complete clear _, kept.inv.polls.1.trans counted⟩,
      fun h => absurd h hv'⟩
  | true =>
    rw [hv, if_pos rfl] at run kept heard
    have hv' : ¬welBit c.lastSr = false := by simp [hv]
    exact ⟨_, run, kept, trace, heard, fun h => absurd h hv', fun _ => rfl⟩

/-- Two states whose first step is the same make the same run. -/
theorem State.run_congr {s t : State} (h : step s = step t) (n : Nat) : s.run (n + 1) = t.run (n + 1) := by
  simp only [State.run, Host.Core.run]
  rw [show Sys2Proof.core.step s = Sys2Proof.core.step t from h]

/-- The WRITE frame; at its end the command polls or settles (R93, R96). -/
theorem run_page_write {s u : State} (h : PageKept s u) (hp : u.phase = .writeEnableVerified) :
    ∃ w, u.run (5 + s.len.toNat) = .next w ∧ PageKept s w ∧ w.lastSr = u.lastSr ∧ w.k = 0 ∧
      w.busTrace = u.busTrace ++ frameTrace .write s [] ∧ FrameHeard .write s u.device w ∧
      (s.cfg.pollEn = true → PageFrame s w .polling .rdsr) ∧ (s.cfg.pollEn = false → w.phase = .settling) := by
  have begins : PageFrame s (beginBody .writing .write u) .writing .write :=
    { inv := inv_beginWrite h.inv hp, op := h.op, silent := h.silent, misuse := h.misuse, rdbuf := h.rdbuf
      operands := h.operands.trans ⟨rfl, rfl, rfl, rfl, rfl, rfl, rfl, rfl⟩, phase := rfl, frame := rfl, pos := rfl }
  have first : step u = step (beginBody .writing .write u) := by
    have busy : u.busy = true := h.inv.busy_running.2 (by simp [hp])
    rw [h.step_eq busy, (writePageWritesThenWaits u h.op).1 hp, begins.step_eq busy,
      exec_page_frame (s := beginBody .writing .write u) (.inl rfl) h.op ⟨rfl, rfl⟩ rfl, frameStep_csAssert _ _ rfl]
    rfl
  obtain ⟨c, answers, run, closed, kept, heard⟩ := begins.run_frame rfl
  have none : answers = [] := List.length_eq_zero_iff.1 closed.received
  have counted : c.k = 0 := by
    have polls := h.inv.polls
    simp only [State.pollsOK, hp] at polls
    simp [closed.k, polls.2.2]
  have status : c.lastSr = u.lastSr := closed.lastSr
  have trace : c.busTrace = u.busTrace ++ frameTrace .write s [] := closed.busTrace.trans (by rw [none]; rfl)
  have next := frameEnd_page_write .write c closed.op closed.phase
  rw [next, closed.cfg] at run kept heard
  rw [show frameEvents .write s = 4 + s.len.toNat + 1 by simp only [frameEvents, outLen, readLen]; omega,
    ← State.run_congr first] at run
  rw [show 5 + s.len.toNat = 4 + s.len.toNat + 1 by omega]
  cases he : s.cfg.pollEn with
  | true =>
    rw [he, if_pos rfl] at run kept heard
    exact ⟨_, run, kept, status, counted, trace, heard, fun _ => { kept with phase := rfl, frame := rfl, pos := rfl },
      fun h => absurd h (by simp)⟩
  | false =>
    rw [he, if_neg (by simp)] at run kept heard
    exact ⟨_, run, kept, status, counted, trace, heard, fun h => absurd h (by simp), fun _ => rfl⟩

/-- The settle wait (R96). -/
theorem run_page_settle {s w : State} (h : PageKept s w) (hp : w.phase = .settling) :
    ∃ t, w.run 1 = .next t ∧ PageKept s t ∧ PageDone t .ok ∧ t.lastSr = w.lastSr ∧ t.pollCount = 0 ∧
      t.busTrace = w.busTrace ++ [.wait .settle] ∧ t.device = w.device := by
  have busy : w.busy = true := h.inv.busy_running.2 (by simp [hp])
  have next : step w = .next (complete .ok (busWait .settle w)) := by
    rw [h.step_eq busy, (writePageWritesThenWaits w h.op).2.2 hp]
    rfl
  have run : w.run 1 = .next (complete .ok (busWait .settle w)) := State.run_succ next
  have clear := h.inv.wel_ok
  have awake := h.inv.wakes
  have polls := h.inv.polls
  simp only [State.welOK, State.wakeOK, State.pollsOK, hp] at clear awake polls
  have closed : w.csN = true := csN_of_closed h.inv (closed_of_unframed h.inv (by rw [hp]; rfl) (by simp [hp]))
  exact ⟨_, run, pageKept_run h run, ⟨rfl, rfl, closed, clear, awake, rfl⟩, rfl, polls.1.trans polls.2.2,
    by simp [State.busTrace], rfl⟩

/-- One poll: bit 1 of its byte ends the command, or the count does, or another poll follows (R95). -/
theorem run_page_poll {s w : State} (h : PageFrame s w .polling .rdsr) :
    ∃ x, w.run 4 = .next x ∧ PageKept s x ∧ x.busTrace = w.busTrace ++ frameTrace .rdsr s [x.lastSr] ∧ x.k = w.k + 1 ∧
      FrameHeard .rdsr s w.device x ∧
      (welBit x.lastSr = false → PageDone x .ok) ∧
      (welBit x.lastSr = true → x.k.toNat = s.cfg.pollBound → PageDone x .deviceTimeout) ∧
      (welBit x.lastSr = true → x.k.toNat ≠ s.cfg.pollBound → PageFrame s x .polling .rdsr) := by
  obtain ⟨c, answers, run, closed, kept, heard⟩ := h.run_frame rfl
  obtain ⟨sr, rfl⟩ := List.length_eq_one_iff.1 closed.received
  have status : c.lastSr = sr := closed.lastSr
  have counted : c.k = w.k + 1 := by simp [closed.k, h.phase]
  have clear : c.wel = .clear := by
    have latch := h.inv.wel_ok
    simp only [State.welOK, h.phase] at latch
    rw [closed.wel, latch, welAfter_clear _ _ (by simp)]
  have trace : c.busTrace = w.busTrace ++ frameTrace .rdsr s [c.lastSr] := by rw [status, closed.busTrace]
  have next := frameEnd_page_poll .rdsr c closed.op (closed.phase.trans h.phase)
  rw [next, closed.cfg] at run kept heard
  cases hv : welBit c.lastSr with
  | false =>
    rw [hv, if_neg (by simp)] at run kept heard
    have hv' : ¬welBit (complete .ok c).lastSr = true := by simp [hv]
    exact ⟨_, run, kept, trace, counted, heard, fun _ => closed.complete clear _, fun h => absurd h hv',
      fun h => absurd h hv'⟩
  | true =>
    have hv' : ¬welBit c.lastSr = false := by simp [hv]
    by_cases hk : c.k.toNat = s.cfg.pollBound
    · rw [hv, if_pos rfl, if_pos hk] at run kept heard
      exact ⟨_, run, kept, trace, counted, heard, fun h => absurd h hv', fun _ _ => closed.complete clear _,
        fun _ h => absurd hk h⟩
    · rw [hv, if_pos rfl, if_neg hk] at run kept heard
      exact ⟨_, run, kept, trace, counted, heard, fun h => absurd h hv', fun _ h => absurd h hk, fun _ _ =>
        { kept with phase := closed.phase.trans h.phase, frame := closed.frame.trans h.frame, pos := closed.pos }⟩

/-- The poll count fits its nine bits. -/
theorem poll_count_succ {s w : State} (h : PageFrame s w .polling .rdsr) : (w.k + 1).toNat = w.k.toNat + 1 := by
  have polls := h.inv.polls
  simp only [State.pollsOK, h.phase, h.pos, Nat.zero_le, if_true] at polls
  refine k_succ polls.2.2 ?_
  have := w.cfg.pollMax.isLt
  simp only [Cfg.pollBound]
  omega

/-- The poller with `m` polls allowed after the next one: polls with bit 1 = 1, then one that ends the command, or the last
allowed one that times it out (R95). -/
theorem run_page_polls {s : State} (m : Nat) {w : State} (h : PageFrame s w .polling .rdsr)
    (hm : w.k.toNat + m = s.cfg.pollMax.toNat) :
    ∃ (polls : List Byte) (t : State) (r : Result),
      w.run (4 * (polls.length + 1)) = .next t ∧ PageKept s t ∧ PageDone t r ∧ polls.length ≤ m ∧
      (∀ p ∈ polls, welBit p = true) ∧
      (welBit t.lastSr = false ∧ r = .ok ∨ welBit t.lastSr = true ∧ polls.length = m ∧ r = .deviceTimeout) ∧
      t.k.toNat = w.k.toNat + polls.length + 1 ∧
      t.busTrace = w.busTrace ++ (polls ++ [t.lastSr]).flatMap fun p => frameTrace .rdsr s [p] := by
  have count := poll_count_succ h
  obtain ⟨x, run, kept, trace, hk, -, answered, timedOut, goesOn⟩ := run_page_poll h
  rw [← hk] at count
  have bound : s.cfg.pollBound = s.cfg.pollMax.toNat + 1 := rfl
  cases hv : welBit x.lastSr with
  | false => exact ⟨[], x, .ok, run, kept, answered hv, by simp, by simp, .inl ⟨hv, rfl⟩, count, by simpa using trace⟩
  | true =>
    cases m with
    | zero =>
      exact ⟨[], x, .deviceTimeout, run, kept, timedOut hv (by omega), le_rfl, by simp, .inr ⟨hv, rfl, rfl⟩, count,
        by simpa using trace⟩
    | succ m =>
      obtain ⟨polls, t, r, run', kept', done, short, busy, last, count', trace'⟩ :=
        run_page_polls m (goesOn hv (by omega)) (by omega)
      refine ⟨x.lastSr :: polls, t, r, ?_, kept', done, by simp [short], List.forall_mem_cons.2 ⟨hv, busy⟩, ?_, ?_, ?_⟩
      · rw [List.length_cons, show 4 * (polls.length + 1 + 1) = 4 + 4 * (polls.length + 1) by omega, State.run_add run, run']
      · simpa using last
      · rw [List.length_cons]
        omega
      · simp [trace', trace]

/-! ### The whole command -/

/-- Settles O56: the stages in order, and the three ways on. -/
theorem writePageRunsWhole : Obligations.WritePageRunsWhole := by
  intro s h ready
  obtain ⟨b, enable, verifies, traceB, -⟩ := run_page_enable h ready
  obtain ⟨u, verify, keptU, traceU, -, refused, verified⟩ := run_page_verify verifies
  rw [traceB] at traceU
  have runU := (State.run_add enable).trans verify
  have ends {n : Nat} {t : State} {r : Result} {way : Prop} (run : s.run n = .next t) (kept : PageKept s t)
      (done : PageDone t r) (hw : way) :
      s.run n = .next t ∧ t.busy = false ∧ t.done = true ∧ t.csN = true ∧ t.wel = .clear ∧ t.wakeNeeded = false ∧
        t.rdbuf = s.rdbuf ∧ t.misuse = s.misuse ∧ SameOperands s t ∧ way :=
    ⟨run, done.busy, done.done, done.csN, done.wel, done.wakeNeeded, kept.rdbuf, kept.misuse, kept.operands, hw⟩
  cases hv : welBit u.lastSr with
  | false =>
    obtain ⟨done, count⟩ := refused hv
    exact ⟨_, u, u.lastSr, ends runU keptU done (.inl ⟨hv, rfl, done.result, rfl, count, traceU⟩)⟩
  | true =>
    obtain ⟨w, write, keptW, lastSr, k, traceW, -, polling, settling⟩ := run_page_write keptU (verified hv)
    rw [traceU] at traceW
    have runW := (State.run_add runU).trans write
    cases he : s.cfg.pollEn with
    | false =>
      obtain ⟨t, settle, kept, done, status, count, trace, -⟩ := run_page_settle keptW (settling he)
      exact ⟨_, t, u.lastSr, ends ((State.run_add runW).trans settle) kept done (.inr (.inl
        ⟨hv, rfl, rfl, done.result, status.trans lastSr, count, by rw [trace, traceW]⟩))⟩
    | true =>
      obtain ⟨polls, t, r, run, kept, done, short, busy, last, count, trace⟩ :=
        run_page_polls s.cfg.pollMax.toNat (polling he) (by simp [k])
      refine ⟨_, t, u.lastSr, ends ((State.run_add runW).trans run) kept done (.inr (.inr
        ⟨hv, rfl, polls, t.lastSr, short, busy, ?_, rfl, rfl, ?_, by rw [trace, traceW]⟩))⟩
      · rw [done.result]
        exact last
      · rw [kept.inv.polls.1, count, k]
        simp

end Sys2Proof.Machine
end

section
/-! The round trip on the reference device (42_storage_interface.md R98; 20_memory.md R50 to R53): what each frame of
WRITE_PAGE and READ makes of it. -/

namespace Sys2Proof.Machine

/-! ### The bytes of the frames -/

theorem outBytes_read (s : State) : outBytes .read s = [WireOp.read.opcode, s.addrHi, s.addrLo] := rfl

theorem outBytes_write (s : State) : outBytes .write s =
    WireOp.write.opcode :: s.addrHi :: s.addrLo :: (List.range s.len.toNat).map s.wrByte := by
  obtain ⟨opcode, addrHi, addrLo, data⟩ := outByte_write s
  have layout : outBytes .write s =
      [0, 1, 2].map (outByte .write s) ++ (List.range s.len.toNat).map (outByte .write s ∘ (3 + ·)) := by
    rw [outBytes, outLen, List.range_add, List.map_append, List.map_map]
    rfl
  have bytes : outByte .write s ∘ (3 + ·) = s.wrByte := funext fun j => by rw [Function.comp, Nat.add_comm, data]
  rw [layout, bytes]
  rfl

/-! ### What the device hears -/

/-- The device in a frame that it hears, after the opcode `f` (R51). -/
def RefDevice.opened (f : WireOp) (r : RefDevice) : RefDevice :=
  { r with asleep := false, ignoring := false, cmd := some f, pos := 1, a := 0, data := [] }

theorem Device.heard_opcode {r : RefDevice} (ha : r.asleep = false) {f : WireOp} (hf : f ≠ .sleep) (l : List Byte) :
    (Device.reference r).heard (f.opcode :: l) = (Device.reference (r.opened f)).receiveAll l := by
  have known : decodeWire f.opcode = some f := by
    cases f
    case sleep => exact absurd rfl hf
    all_goals rfl
  simp [Device.heard, Device.csDown, Device.receive, RefDevice.csDown, RefDevice.receive, RefDevice.opened, ha, known]

/-- Past the address, a WRITE frame's bytes are data (R52). -/
theorem Device.receive_data (l : List Byte) {r : RefDevice} (hi : r.ignoring = false) (hc : r.cmd = some .write)
    (hp : 3 ≤ r.pos) :
    (Device.reference r).receiveAll l =
      .reference { r with data := r.data ++ l, pos := r.pos + l.length } := by
  induction l generalizing r with
  | nil => simp
  | cons b l ih =>
    have first : (Device.reference r).receive b = .reference { r with data := r.data ++ [b], pos := r.pos + 1 } := by
      simp [Device.receive, RefDevice.receive, hi, hc, show r.pos ≠ 0 by omega, show r.pos ≠ 1 by omega,
        show r.pos ≠ 2 by omega]
    rw [Device.receiveAll_cons, first, ih (r := { r with data := r.data ++ [b], pos := r.pos + 1 }) hi hc (Nat.le_succ_of_le hp)]
    simp [Nat.add_assoc, Nat.add_comm 1]

/-- Past the address, a READ frame's bytes only count (R52). -/
theorem Device.receive_reads (l : List Byte) {r : RefDevice} (hi : r.ignoring = false) (hc : r.cmd = some .read)
    (hp : 3 ≤ r.pos) :
    (Device.reference r).receiveAll l = .reference { r with pos := r.pos + l.length } := by
  induction l generalizing r with
  | nil => simp
  | cons b l ih =>
    have first : (Device.reference r).receive b = .reference { r with pos := r.pos + 1 } := by
      simp [Device.receive, RefDevice.receive, hi, hc, show r.pos ≠ 0 by omega, show r.pos ≠ 1 by omega,
        show r.pos ≠ 2 by omega]
    rw [Device.receiveAll_cons, first, ih (r := { r with pos := r.pos + 1 }) hi hc (Nat.le_succ_of_le hp)]
    simp [Nat.add_assoc, Nat.add_comm 1]

/-- The two bytes after the opcode of READ or WRITE are the address, most-significant byte first (R39). -/
theorem Device.receive_address {r : RefDevice} {f : WireOp} (hf : f = .read ∨ f = .write) (hi lo : Byte) (l : List Byte) :
    (Device.reference (r.opened f)).receiveAll (hi :: lo :: l) =
      (Device.reference { r.opened f with a := hi ++ lo, pos := 3 }).receiveAll l := by
  have high : (hi ++ 0#8).extractLsb' 8 8 = hi := BitVec.extractLsb'_append_eq_left
  rcases hf with rfl | rfl <;> simp [Device.receive, RefDevice.receive, RefDevice.opened, high]

/-! ### The frames of WRITE_PAGE and READ, whole -/

section
variable {r : RefDevice} (awake : r.asleep = false) (s : State)
include awake

/-- A WREN frame sets WEL (R52). -/
theorem reference_wren : ∃ r', ((Device.reference r).heard (mosiBytes .wren s)).csUp = .reference r' ∧
    r'.asleep = false ∧ welBit r'.sr = true := by
  refine ⟨(r.opened .wren).csUp, ?_, rfl, ?_⟩
  · rw [show mosiBytes .wren s = WireOp.wren.opcode :: [] from rfl, Device.heard_opcode awake (by simp)]
    rfl
  · have wel : welBit (setWel r.sr true) = true := by rw [welBit, setWel_getLsbD]; simp
    exact wel

/-- An RDSR frame is answered with the status register (R52). -/
theorem reference_status (n : Nat) : ((Device.reference r).heard (outBytes .rdsr s)).answer n = r.sr := by
  rw [show outBytes .rdsr s = WireOp.rdsr.opcode :: [] from rfl, Device.heard_opcode awake (by simp)]
  rfl

/-- An RDSR frame changes nothing (R52). -/
theorem reference_rdsr : ∃ r', ((Device.reference r).heard (mosiBytes .rdsr s)).csUp = .reference r' ∧
    r'.asleep = false ∧ r'.sr = r.sr ∧ r'.arr = r.arr := by
  refine ⟨((r.opened .rdsr).receive 0).csUp, ?_, rfl, rfl, rfl⟩
  rw [show mosiBytes .rdsr s = WireOp.rdsr.opcode :: [0] from rfl, Device.heard_opcode awake (by simp)]
  rfl

/-- A WRITE frame with WEL set stores the bytes of WRBUF at ADDR and clears WEL (R52). -/
theorem reference_write (wel : welBit r.sr = true) :
    ∃ r', ((Device.reference r).heard (mosiBytes .write s)).csUp = .reference r' ∧ r'.asleep = false ∧
      welBit r'.sr = false ∧
      r'.arr = storeBytes r.arr (s.addrHi ++ s.addrLo).toNat ((List.range s.len.toNat).map s.wrByte) := by
  have bytes : mosiBytes .write s =
      WireOp.write.opcode :: s.addrHi :: s.addrLo :: (List.range s.len.toNat).map s.wrByte := by
    rw [mosiBytes, outBytes_write]
    exact List.append_nil _
  rw [bytes, Device.heard_opcode awake (by simp), Device.receive_address (.inr rfl),
    Device.receive_data _ rfl rfl le_rfl]
  have cleared : welBit (setWel r.sr false) = false := by rw [welBit, setWel_getLsbD]; simp
  refine ⟨_, rfl, ?_, ?_, ?_⟩ <;> simp [RefDevice.csUp, RefDevice.effect, RefDevice.opened, wel]
  exact cleared

/-- The answer to byte `j` of a READ frame's read phase is the array's byte at ADDR + j (R52). -/
theorem reference_read {j : Nat} (hj : j < s.len.toNat) (n : Nat) :
    ((Device.reference r).heard ((mosiBytes .read s).take (outLen .read s + j))).answer n =
      r.arrByte (((s.addrHi ++ s.addrLo).toNat + j) % Config.framSize) := by
  have bytes : (mosiBytes .read s).take (outLen .read s + j) =
      WireOp.read.opcode :: s.addrHi :: s.addrLo :: List.replicate j 0 := by
    have len : outLen .read s + j = (outBytes .read s).length + j := rfl
    have short : min j (readLen .read s) = j := Nat.min_eq_left hj.le
    rw [mosiBytes, len, List.take_length_add_append, List.take_replicate, short, outBytes_read]
    rfl
  rw [bytes, Device.heard_opcode awake (by simp), Device.receive_address (.inl rfl),
    Device.receive_reads _ rfl rfl le_rfl]
  simp [Device.answer, RefDevice.answer, RefDevice.opened, RefDevice.arrByte]

end

/-- The address sent is ADDR, where the range check holds (R39, R78). -/
theorem sent_address {s : State} (h : s.addr.toNat < 32768) : (s.addrHi ++ s.addrLo).toNat = s.addr.toNat := by
  rw [State.addrHi, State.addrLo, BitVec.extractLsb'_append_extractLsb'_eq_extractLsb' (start₁ := 0) (start₂ := 8) rfl, BitVec.extractLsb'_toNat,
    Nat.shiftRight_zero, Nat.mod_eq_of_lt (by omega)]

/-- A device that is asleep only where the block knows it may be is awake at the start of a command's body (R89, R98). -/
theorem reference_woken {s : State} {r : RefDevice} (hd : s.device = .reference r)
    (ha : r.asleep = true → s.wakeNeeded = true) : ∃ r', s.deviceWoken = .reference r' ∧ r'.asleep = false := by
  cases hw : s.wakeNeeded with
  | false => exact ⟨r, by simp [State.deviceWoken, hw, hd], by simpa [hw] using ha⟩
  | true =>
    refine ⟨r.csDown.csUp, by simp [State.deviceWoken, hw, hd, Device.csDown, Device.csUp], ?_⟩
    cases hr : r.asleep <;> simp [RefDevice.csUp, RefDevice.csDown, RefDevice.effect, hr]

/-! ### The round trip -/

/-- A WRITE_PAGE on an awake device ends with OK, whichever way it waits, and leaves WRBUF in the array at ADDR (R98). -/
theorem run_page_reference {s : State} {r : RefDevice} (h : s.Inv) (ready : s.Ready .writePage)
    (hd : s.device = .reference r) (ha : r.asleep = true → s.wakeNeeded = true) :
    ∃ n t r', s.run n = .next t ∧ PageKept s t ∧ PageDone t .ok ∧ t.device = .reference r' ∧ r'.asleep = false ∧
      ∀ j, j < s.len.toNat → r'.arrByte (s.addr.toNat + j) = s.wrByte j := by
  obtain ⟨r₀, woken, awake₀⟩ := reference_woken hd ha
  obtain ⟨b, enable, verifies, -, heardB⟩ := run_page_enable h ready
  obtain ⟨r₁, enabled, awake₁, wel₁⟩ := reference_wren awake₀ s
  rw [← woken, ← heardB.device] at enabled
  obtain ⟨u, verify, keptU, -, heardU, -, verified⟩ := run_page_verify verifies
  obtain ⟨r₂, checked, awake₂, sr₂, -⟩ := reference_rdsr awake₁ s
  obtain ⟨n, status⟩ := heardU.status rfl
  rw [enabled, reference_status awake₁] at status
  rw [← enabled, ← heardU.device] at checked
  obtain ⟨w, write, keptW, -, k, -, heardW, polling, settling⟩ := run_page_write keptU (verified (status ▸ wel₁))
  obtain ⟨r₃, written, awake₃, wel₃, arr₃⟩ := reference_write awake₂ s (sr₂ ▸ wel₁)
  rw [← checked, ← heardW.device] at written
  have runW := (State.run_add ((State.run_add enable).trans verify)).trans write
  have stored : ∀ r' : RefDevice, r'.arr = r₃.arr → ∀ j, j < s.len.toNat → r'.arrByte (s.addr.toNat + j) = s.wrByte j := by
    intro r' hr j hj
    obtain ⟨low, -, fits⟩ := (addrOK_iff _ _).1 (ready.range rfl)
    rw [RefDevice.arrByte, hr, arr₃, sent_address low, storeBytes_read _ _ _ _ (by rw [List.length_map, List.length_range]; exact fits)]
    simp [hj]
  cases he : s.cfg.pollEn with
  | false =>
    obtain ⟨t, settle, kept, done, -, -, -, device⟩ := run_page_settle keptW (settling he)
    exact ⟨_, t, r₃, (State.run_add runW).trans settle, kept, done, device.trans written, awake₃, stored r₃ rfl⟩
  | true =>
    obtain ⟨t, poll, kept, -, -, heardT, answered, -⟩ := run_page_poll (polling he)
    obtain ⟨r₄, polled, awake₄, -, arr₄⟩ := reference_rdsr awake₃ s
    obtain ⟨m, idle⟩ := heardT.status rfl
    rw [written, reference_status awake₃] at idle
    rw [← written, ← heardT.device] at polled
    exact ⟨_, t, r₄, (State.run_add runW).trans poll, kept, answered (idle ▸ wel₃), polled, awake₄, stored r₄ arr₄⟩

/-- A single-frame command sends its frame whole to the device that has seen the wake pulse. -/
theorem single_heard {f : WireOp} {s u : State} (ready : s.Ready f.command)
    (hu : s.run (1 + s.wakeSteps + frameEvents f s) = .next u) : FrameHeard f s s.deviceWoken u := by
  have op : f.command ≠ .illegal := by cases f <;> simp [WireOp.command]
  have start : (bodyStart f.command).2 = f := by cases f <;> rfl
  obtain ⟨owned, framed⟩ := phaseOwned_bodyStart f
  obtain ⟨b, wake, begun⟩ := run_to_body op ready
  have frame := begun.frame.trans start
  have begins : FrameBegins b :=
    { owned := by rw [begun.op.trans ready.latched, begun.phase, frame]; exact owned
      framed := by rw [begun.phase]; exact framed
      busy := begun.busy.trans ready.busy
      silent := begun.operands.schedule.trans ready.silent
      pos := begun.pos
      reads := by
        rw [frame, readLen_congr f begun.operands.len begun.operands.cfg]
        exact readLen_le ready.range }
  have run : b.run (frameEvents b.frame b) = .next u := by
    rw [frame, frameEvents_congr f begun.operands.len begun.operands.cfg, ← State.run_add wake, hu]
  have heard := (begins.heard run).1
  rw [frame, run_to_body_device op ready wake] at heard
  exact heard.of_sameOperands begun.operands

/-- A READ gives back the array's bytes from ADDR on (R90, R98). -/
theorem run_read_reference {s : State} {r : RefDevice} (h : s.Inv) (ready : s.Ready .read) (hd : s.device = .reference r)
    (ha : r.asleep = false) (hw : s.wakeNeeded = false) :
    ∃ m u, s.run m = .next u ∧ u.busy = false ∧ u.result = .ok ∧ u.schedule = [] ∧
      ∀ j, j < s.len.toNat → u.rdByte j = r.arrByte (s.addr.toNat + j) := by
  obtain ⟨u, answers, run, -, -, busy, -, ok, -, -, -, -, -, -, -, operands⟩ :=
    singleFrameCommandsRunWhole .read s h ready
  refine ⟨_, u, run, busy, ok, operands.schedule.trans ready.silent, fun j hj => ?_⟩
  have woken : s.deviceWoken = .reference r := by simp [State.deviceWoken, hw, hd]
  obtain ⟨n, answer⟩ := (single_heard (f := .read) ready run).data (.inl rfl) j hj
  obtain ⟨low, -, fits⟩ := (addrOK_iff _ _).1 (ready.range rfl)
  rw [answer, woken, reference_read ha s hj, sent_address low, Nat.mod_eq_of_lt (by simp only [Config.framSize]; omega)]

/-- Settles O57: WRITE_PAGE leaves the bytes in the array, and READ of the same range gives them back. -/
theorem writePageThenReadGivesTheData : Obligations.WritePageThenReadGivesTheData := by
  intro s r h ready unlocked hd ha
  obtain ⟨n, t, r', run, kept, done, device, awake, stored⟩ := run_page_reference h ready hd ha
  refine ⟨n, t, run, done.busy, done.result, ?_⟩
  have silent : t.schedule = [] := kept.silent
  have same : ({ t with schedule := [] } : State) = t := by rw [← silent]
  have accepts : step { t with schedule := [.host (.write 0 0x00000005)] } =
      .next (accept .read { t with schedule := [] }) :=
    (commandWriteAcceptsOrMarksMisuse _ _ _ (inv_schedule kept.inv _) rfl).2.2 (kept.misuse.trans unlocked) done.busy
  rw [same] at accepts
  have inv : (accept .read t).Inv := by
    have := inv_commandWrite kept.inv .read
    rwa [commandWrite, kept.misuse, unlocked, done.busy] at this
  have range : t.rangeOK = true := by
    rw [State.rangeOK, kept.operands.addr, kept.operands.len]
    exact ready.range rfl
  have readyRead : (accept .read t).Ready .read := ⟨silent, rfl, rfl, rfl, fun _ => range, fun h => by cases h⟩
  obtain ⟨m, u, read, busy, ok, quiet, data⟩ := run_read_reference inv readyRead device awake done.wakeNeeded
  refine ⟨m + 1, u, (State.run_succ accepts).trans read, busy, ok, quiet, fun j hj => ?_⟩
  rw [data j (by rwa [accept_len, kept.operands.len]), accept_addr, kept.operands.addr, stored j hj]

end Sys2Proof.Machine
end

section
/-! The block has no exception (60_exceptions.md R99, R105): with no command running the sequencer rests, a state that
meets the invariant always has a next one, and the model's own stop is where no frame is in progress. -/

namespace Sys2Proof.Machine

/-! ### Off an instruction's position -/

/-- A wire row is the instruction of its frame. -/
theorem Instr.eq_instr_of_wire? {i : Instr} {f : WireOp} (h : i.wire? = some f) : i = f.instr := by
  cases i <;> cases h <;> rfl

theorem runFrame_stray {f : WireOp} {s : State} (h : ¬(s.phase.framed = true ∧ s.frame = f)) :
    runFrame f s = .fault .strayPosition := by
  rw [runFrame, if_neg]
  simpa using h

theorem execIllegal_stray (w : Word) {s : State} (h0 : s.phase ≠ .idle) (h1 : s.phase ≠ .accepted) :
    execIllegal w s = .fault .strayPosition := by
  unfold execIllegal
  split
  case h_1 hp => exact absurd hp h0
  case h_2 hp => exact absurd hp h1
  all_goals rfl

/-- Settles O44: a frame's row is `runFrame` of its frame. -/
theorem instructionsStopOffTheirPosition : Obligations.InstructionsStopOffTheirPosition := by
  refine ⟨fun i f s hi => ?_, fun w s h0 h1 => execIllegal_stray w h0 h1⟩
  rw [Instr.eq_instr_of_wire? hi, exec_wire]
  exact ⟨fun ⟨hf, hfr⟩ => ⟨_, runFrame_next f s hf hfr⟩, runFrame_stray⟩

/-! ### The sequencer's turn -/

theorem fetchLatched_idle {s : State} (hb : s.busy = false) : fetchLatched s = .quiet s :=
  if_neg (by simp [hb])

/-- Settles O9. -/
theorem idleSequencerRests : Obligations.IdleSequencerRests := by
  refine fun s hb => ⟨fun hq => ?_, fun rest hq => ?_⟩
  · simp [step, fetch, hq, fetchLatched_idle hb]
  · simp [step, fetch, hq, fetchLatched_idle (s := { s with schedule := rest }) hb]

/-- The latched command answers a next state in every phase it owns (R27). -/
theorem exec_latched_answers {s : State} (h : s.Inv) (hb : s.busy = true) : ∃ t, exec s.op.instr s = .next t := by
  have owned := h.owned
  have page : s.op = .writePage → exec s.op.instr s = exec .writePage s := fun ho => by rw [ho]; rfl
  cases hp : s.phase <;> rw [hp] at owned
  case idle => exact absurd hp (h.busy_running.1 hb)
  case accepted => exact ⟨_, exec_accepted (Op.op?_instr _) s hp⟩
  case waking => exact ⟨_, exec_waking (Op.op?_instr _) owned.1 s hp⟩
  case writeEnableVerified =>
    obtain ⟨begins, -, -⟩ := writePageWritesThenWaits s owned
    exact ⟨_, (page owned).trans (begins hp)⟩
  case settling =>
    obtain ⟨-, -, settles⟩ := writePageWritesThenWaits s owned
    exact ⟨_, (page owned).trans (settles hp)⟩
  all_goals exact ⟨_, exec_latched_framed h.owned (by rw [hp]; rfl)⟩

theorem step_answers_sequencer {s : State} (h : s.Inv) (hq : s.sequencerTurn) : ∃ t, step s = .next t := by
  cases hb : s.busy with
  | false =>
    obtain ⟨l, -, e⟩ := step_resting hb hq
    exact ⟨_, e⟩
  | true =>
    rcases hq with hq | ⟨rest, hq⟩
    · rw [step_sequencer hb hq]
      exact exec_latched_answers h hb
    · rw [step_sequencer_cons hb hq]
      exact exec_latched_answers (inv_schedule h rest) hb

/-- Settles O16, by whose turn it is: only the sequencer's runs an instruction that could stop, but for the host's CMD
write, which is `CommandWrite`. -/
theorem stepNeverStops : Obligations.StepNeverStops := by
  intro s h
  cases hq : s.schedule with
  | nil => exact step_answers_sequencer h (.inl hq)
  | cons turn rest =>
    cases turn with
    | sequencer => exact step_answers_sequencer h (.inr ⟨rest, hq⟩)
    | host a =>
      cases a with
      | read k => exact ⟨_, step_hostRead hq⟩
      | write k w =>
        by_cases hk : k.toNat = 0
        · exact ⟨_, step_cmdWrite hq hk (idle_of h)⟩
        · exact ⟨_, step_hostWrite hq hk⟩
    | waitIdle => exact ⟨hostWaitIdle { s with schedule := rest }, by simp [step, fetch, hq]⟩
    | reset => exact ⟨_, step_reset hq⟩
    | powerOn => exact ⟨_, step_powerOn hq⟩
    | devicePowerUp => exact ⟨_, step_devicePowerUp hq⟩

end Sys2Proof.Machine
end

section
/-! Bounded completion (60_exceptions.md R103; 70_reset_and_hazards.md R125): a bound on the steps a running command has
left, which every step of the sequencer lowers. -/

namespace Sys2Proof.Machine

/-! ### The bound -/

/-- The polls that have begun, the one in progress among them: it counts itself with its status byte (R95). -/
def State.pollsBegun (s : State) : Nat := s.k.toNat + if s.pos ≤ 2 then 1 else 0

/-- The most steps from the start of WRITE_PAGE's WRITE frame on: the frame and every poll allowed (R93, R95). -/
def State.writeSteps (s : State) : Nat := frameEvents .write s + 4 * s.cfg.pollBound

/-- The most steps that can follow the frame in progress (R93 to R95); only WRITE_PAGE sends a second one. -/
def State.stepsAfterFrame (s : State) : Nat :=
  match s.phase with
  | .writeEnabling => (if s.frame = .wren then frameEvents .rdsr s else 0) + s.writeSteps
  | .writing => 4 * s.cfg.pollBound
  | .polling => 4 * (s.cfg.pollBound - s.pollsBegun)
  | .idle | .accepted | .waking | .framing | .reading | .identifying | .writeEnableVerified | .settling => 0

/-- The most steps the running command can still take (R125): one for validation, three for the wake pulse, and 2060 for
the longest body, WRITE_PAGE's of 1024 bytes with 256 polls. -/
def State.stepsLeft (s : State) : Nat :=
  match s.phase with
  | .idle => 0
  | .accepted => 1 + 3 + 2060
  | .waking => 3 - s.pos + 2060
  | .writeEnableVerified => s.writeSteps
  | .settling => 1
  | .framing | .reading | .identifying | .writeEnabling | .writing | .polling =>
    frameEvents s.frame s - s.pos + s.stepsAfterFrame

@[simp] theorem stepsLeft_complete (c : Result) (s : State) : (complete c s).stepsLeft = 0 := rfl

theorem stepsLeft_framed {s : State} (hf : s.phase.framed = true) :
    s.stepsLeft = frameEvents s.frame s - s.pos + s.stepsAfterFrame := by
  cases hp : s.phase <;> simp only [hp, Phase.framed, Bool.false_eq_true] at hf <;> simp only [State.stepsLeft, hp]

theorem Cfg.pollBound_le (c : Cfg) : c.pollBound ≤ 256 := by
  have := c.pollMax.isLt
  simp only [pollBound]
  omega

/-- A frame of a command that passed validation has at most 1024 data bytes (R78). -/
theorem frameEvents_le {f : WireOp} {s : State} (h : bearsAddress f.command = true → s.rangeOK = true) :
    frameEvents f s ≤ 1029 := by
  have read := readLen_le h
  cases f
  case write =>
    obtain ⟨-, len, -⟩ := (addrOK_iff _ _).1 (h rfl)
    simp only [frameEvents, outLen, readLen]
    omega
  all_goals
    simp only [frameEvents, outLen] at *
    omega

theorem writeSteps_le {s : State} (h : s.rangeOK = true) : s.writeSteps ≤ 2053 := by
  have frame := frameEvents_le (f := .write) (s := s) fun _ => h
  have polls := s.cfg.pollBound_le
  simp only [State.writeSteps]
  omega

/-- The frame in progress is one whose command passed validation. -/
theorem frameEvents_le_of_framed {s : State} (h : s.Inv) (hf : s.phase.framed = true) : frameEvents s.frame s ≤ 1029 := by
  refine frameEvents_le fun hb => ?_
  have owned := h.owned
  have range := h.ranged
  cases hp : s.phase <;> simp only [hp, Phase.framed, Bool.false_eq_true] at hf <;>
    simp only [State.rangeGuard, phaseOwned, hp] at range owned <;> apply range
  case framing =>
    rcases owned with ⟨hfr, hop⟩ | ⟨hfr, hop⟩ | ⟨hfr, hop⟩ | ⟨hfr, hop⟩ | ⟨hfr, hop⟩ | ⟨hfr, hop⟩ <;>
      rw [hfr] at hb <;> rw [hop] <;> exact hb
  case reading | identifying => rw [owned.1] at hb; rw [owned.2]; exact hb
  case writeEnabling | writing | polling => rw [owned.2]; rfl

/-- No body takes more than 2060 steps (R125). -/
theorem stepsLeft_le_body {s : State} (h : s.Inv) (ha : s.phase ≠ .accepted) (hw : s.phase ≠ .waking) :
    s.stepsLeft ≤ 2060 := by
  have owned := h.owned
  have range := h.ranged
  have polls := s.cfg.pollBound_le
  have page : s.op = .writePage → (bearsAddress s.op = true → s.rangeOK = true) → s.writeSteps ≤ 2053 :=
    fun hop hr => writeSteps_le (hr (by rw [hop]; rfl))
  have frame := frameEvents_le_of_framed h
  cases hp : s.phase <;> simp only [hp, Phase.framed, State.rangeGuard, phaseOwned] at owned range frame <;>
    simp only [State.stepsLeft, State.stepsAfterFrame, hp]
  case accepted => exact absurd hp ha
  case waking => exact absurd hp hw
  case idle | settling => omega
  case framing | reading | identifying | writing | polling =>
    have := frame trivial
    omega
  case writeEnableVerified =>
    have := page owned range
    omega
  case writeEnabling =>
    have := page owned.2 range
    rcases owned.1 with hfr | hfr <;> simp only [hfr, frameEvents, outLen, readLen, reduceCtorEq, if_true, if_false] <;> omega

theorem stepsLeft_le_waking {s : State} (h : s.Inv) (ha : s.phase ≠ .accepted) : s.stepsLeft ≤ 2063 := by
  by_cases hw : s.phase = .waking
  · simp only [State.stepsLeft, hw]
    omega
  · exact (stepsLeft_le_body h ha hw).trans (by omega)

/-- R125's maximum. -/
theorem stepsLeft_le {s : State} (h : s.Inv) : s.stepsLeft ≤ 2064 := by
  by_cases ha : s.phase = .accepted
  · simp only [State.stepsLeft, ha]
    omega
  · exact (stepsLeft_le_waking h ha).trans (by omega)

/-- The wake pulse leads to a body, which begins past it. -/
theorem bodyStart_phase (o : Op) : (bodyStart o).1 ≠ .accepted ∧ (bodyStart o).1 ≠ .waking := by
  cases o <;> simp [bodyStart]

/-- The last event of the frame in progress is still to come. -/
theorem stepsAfterFrame_lt_stepsLeft {s : State} (h : s.Inv) (hf : s.phase.framed = true) :
    s.stepsAfterFrame < s.stepsLeft := by
  have hlt := pos_lt_frameEvents h hf
  rw [stepsLeft_framed hf]
  omega

/-! ### Every step lowers it -/

/-- One event further in the same frame, with as many polls begun, the bound is lower. -/
theorem stepsLeft_event {s t : State} (hf : s.phase.framed = true) (operands : SameOperands s t)
    (phase : t.phase = s.phase) (frame : t.frame = s.frame) (polls : s.phase = .polling → t.pollsBegun = s.pollsBegun)
    (pos : t.pos = s.pos + 1) (hlt : s.pos < frameEvents s.frame s) : t.stepsLeft < s.stepsLeft := by
  have events (f : WireOp) : frameEvents f t = frameEvents f s := frameEvents_congr f operands.len operands.cfg
  have after : t.stepsAfterFrame = s.stepsAfterFrame := by
    simp only [State.stepsAfterFrame, State.writeSteps, phase, frame, events, operands.cfg]
    cases hp : s.phase <;> simp only [polls, hp]
  rw [stepsLeft_framed hf, stepsLeft_framed (phase ▸ hf), after, frame, events, pos]
  omega

/-- No event within a poll changes how many have begun: the status byte adds one to the count as the poll in progress stops
counting for itself (R95). -/
theorem pollsBegun_event {s : State} (h : s.Inv) (hp : s.phase = .polling)
    (hmid : s.pos ≤ outLen s.frame s + readLen s.frame s) : (frameStep s.frame s).pollsBegun = s.pollsBegun := by
  have hfr : s.frame = .rdsr := by
    have owned := h.owned
    rw [hp] at owned
    exact owned.1
  obtain ⟨-, -, polls⟩ := h.polls
  simp only [hp] at polls
  have bound := s.cfg.pollBound_le
  rw [hfr] at hmid ⊢
  simp only [outLen, readLen] at hmid
  rcases frameStep_cases .rdsr s with ⟨h0, e⟩ | ⟨h0, h1, e⟩ | ⟨h1, h2, e⟩ | ⟨h2, e⟩ <;> rw [e]
  · simp [State.pollsBegun, h0]
  · simp only [outLen] at h1
    simp only [State.pollsBegun, xferSend_k]
    rw [if_pos (by omega), if_pos (by omega)]
  · simp only [outLen, readLen] at h1 h2
    have second : s.pos = 2 := by omega
    simp only [second, Nat.le_refl, if_true] at polls
    have counted := k_succ polls bound
    simpa [State.pollsBegun, keepByte_k, hp, second] using counted
  · simp only [outLen, readLen] at h2
    omega

/-- The end of the WREN frame leaves the verify RDSR and what follows it. -/
theorem stepsLeft_after_wren {c : State} (hop : c.op = .writePage) (hp : c.phase = .writeEnabling) (h0 : c.pos = 0) :
    (frameEnd .wren c).stepsLeft = 4 + c.writeSteps := by
  rw [frameEnd_page_wren c hop hp, stepsLeft_framed (by simp [hp, Phase.framed])]
  simp [State.stepsAfterFrame, State.writeSteps, hp, h0, frameEvents, outLen, readLen]

/-- The verification goes on to the WRITE frame or completes the command (R94). -/
theorem stepsLeft_after_verify {c : State} (hop : c.op = .writePage) (hp : c.phase = .writeEnabling) :
    (frameEnd .rdsr c).stepsLeft ≤ c.writeSteps := by
  rw [frameEnd_page_verify c hop hp]
  split_ifs
  · exact Nat.le_refl _
  · simp

/-- The next poll and those that may follow it (R95). -/
theorem stepsLeft_poll {c : State} (hp : c.phase = .polling) (hf : c.frame = .rdsr) (h0 : c.pos = 0)
    (hk : c.k.toNat < c.cfg.pollBound) : c.stepsLeft = 4 * (c.cfg.pollBound - c.k.toNat) := by
  rw [stepsLeft_framed (by rw [hp]; rfl)]
  simp only [State.stepsAfterFrame, State.pollsBegun, hp, hf, h0, frameEvents, outLen, readLen, Nat.zero_le, if_true]
  omega

/-- The WRITE frame's end leaves the polls, or the one step of the settle wait (R93, R96). -/
theorem stepsLeft_after_write {c : State} (hop : c.op = .writePage) (hp : c.phase = .writing) (hk : c.k = 0) :
    (frameEnd .write c).stepsLeft ≤ 4 * c.cfg.pollBound := by
  have bound : 0 < c.cfg.pollBound := Nat.succ_pos _
  rw [frameEnd_page_write .write c hop hp]
  split_ifs
  · rw [stepsLeft_poll (c := beginBody .polling .rdsr c) rfl rfl rfl (by simpa [hk] using bound)]
    simp [hk]
  · show 1 ≤ _
    omega

/-- A poll's end leaves the polls not yet made, or completes the command (R95). -/
theorem stepsLeft_after_poll {c : State} (hop : c.op = .writePage) (hp : c.phase = .polling) (hf : c.frame = .rdsr)
    (h0 : c.pos = 0) (hk : c.k.toNat ≤ c.cfg.pollBound) :
    (frameEnd .rdsr c).stepsLeft ≤ 4 * (c.cfg.pollBound - c.k.toNat) := by
  rw [frameEnd_page_poll .rdsr c hop hp]
  split_ifs with _ hlast
  · simp
  · exact (stepsLeft_poll hp hf h0 (lt_of_le_of_ne hk hlast)).le
  · simp

/-- What a frame's end leaves is within what the bound set aside for it. -/
theorem stepsLeft_frameEnd {s : State} (h : s.Inv) (hf : s.phase.framed = true)
    (hp : outLen s.frame s + readLen s.frame s < s.pos) :
    (frameEnd s.frame (closeFrame s.frame (csDeassert s))).stepsLeft ≤ s.stepsAfterFrame := by
  by_cases hop : s.op = .writePage
  case neg => simp [frameEnd_single _ (closeFrame s.frame (csDeassert s)) hop]
  have owned := h.owned
  obtain ⟨-, -, polls⟩ := h.polls
  cases hph : s.phase <;> simp only [hph, Phase.framed, Bool.false_eq_true] at hf <;>
    simp only [hph, hop, phaseOwned, reduceCtorEq, and_false, or_false, and_true] at owned polls <;>
    simp only [State.stepsAfterFrame, hph]
  case writeEnabling =>
    rcases owned with hfr | hfr <;> rw [hfr]
    · exact (stepsLeft_after_wren (c := closeFrame .wren (csDeassert s)) hop hph rfl).le
    · exact (stepsLeft_after_verify (c := closeFrame .rdsr (csDeassert s)) hop hph).trans (Nat.le_add_left _ _)
  case writing =>
    rw [owned]
    exact stepsLeft_after_write (c := closeFrame .write (csDeassert s)) hop hph polls
  case polling =>
    rw [owned] at hp ⊢
    have counted : ¬s.pos ≤ 2 := by
      simp only [outLen, readLen] at hp
      omega
    simp only [State.pollsBegun, if_neg counted, Nat.add_zero] at polls ⊢
    exact stepsLeft_after_poll (c := closeFrame .rdsr (csDeassert s)) hop hph owned rfl polls

/-- An event of the frame in progress lowers the bound: the last one by what it leaves, the others by one. -/
theorem stepsLeft_frameStep {s : State} (h : s.Inv) (hf : s.phase.framed = true) :
    (frameStep s.frame s).stepsLeft < s.stepsLeft := by
  by_cases hp : s.pos ≤ outLen s.frame s + readLen s.frame s
  · obtain ⟨mid, pos⟩ := midFrame_step hp
    exact stepsLeft_event hf mid.operands mid.phase mid.frame (fun hpoll => pollsBegun_event h hpoll hp) pos
      (pos_lt_frameEvents h hf)
  · rw [not_le] at hp
    rw [frameStep_end _ _ hp]
    exact (stepsLeft_frameEnd h hf hp).trans_lt (stepsAfterFrame_lt_stepsLeft h hf)

theorem validate_phase (o : Op) (s : State) : (validate o (startOf o) s).phase ≠ .accepted := by
  unfold validate
  split_ifs with ho
  case neg =>
    rw [startOf_eq ho]
    exact (bodyStart_phase o).1
  all_goals simp

theorem stepsLeft_wakeStep {s : State} (h : s.Inv) (hp : s.phase = .waking) (ho : s.op ≠ .illegal) :
    (wakeStep (startOf s.op) s).stepsLeft < s.stepsLeft := by
  have position := h.position
  simp only [State.positionOK, hp] at position
  have now : s.stepsLeft = 3 - s.pos + 2060 := by simp only [State.stepsLeft, hp]
  by_cases h0 : s.pos = 0
  · rw [wakeStep_csAssert _ h0, now, h0]
    simp [State.stepsLeft, hp]
  by_cases h1 : s.pos = 1
  · rw [wakeStep_csDeassert _ h1, now, h1]
    simp [State.stepsLeft, hp]
  have body : (wakeStep (startOf s.op) s).phase = (bodyStart s.op).1 := by
    rw [wakeStep_wait _ h0 h1, startOf_eq ho]
    rfl
  obtain ⟨ha, hw⟩ := bodyStart_phase s.op
  have := stepsLeft_le_body (inv_wake h hp) (body ▸ ha) (body ▸ hw)
  omega

/-- Every step of the sequencer lowers the bound. -/
theorem stepsLeft_sequencerStep {s t : State} (h : s.Inv) (m : SequencerStep s t) : t.stepsLeft < s.stepsLeft := by
  cases m with
  | validate hp e =>
    have start : s.stepsLeft = 2064 := by simp only [State.stepsLeft, hp]
    have := stepsLeft_le_waking (inv_validate h hp) (validate_phase s.op s)
    rw [e]
    omega
  | wake hp ho e => exact e ▸ stepsLeft_wakeStep h hp ho
  | frame hf e => exact e ▸ stepsLeft_frameStep h hf
  | beginWrite hp e =>
    have begun : (beginBody .writing .write s).stepsLeft = s.stepsLeft := by
      simp only [State.stepsLeft, hp]
      rfl
    exact e ▸ begun ▸ stepsLeft_frameStep (inv_beginWrite h hp) rfl
  | settle hp e => simp [e, State.stepsLeft, hp]

/-! ### Completion -/

/-- A silent host leaves the next step to the running command, and stays silent. -/
theorem step_running {s : State} (h : s.Inv) (hb : s.busy = true) (hq : s.hostSilent) :
    ∃ t, step s = .next t ∧ SequencerStep s t ∧ t.hostSilent := by
  obtain ⟨t, e⟩ := exec_latched_answers h hb
  obtain ⟨operands, -⟩ := instructionsKeepTheHostsRegisters _ s t e
  exact ⟨t, (step_sequencer hb hq).trans e, sequencerStep_of_exec (h.busy_running.1 hb) e, operands.schedule.trans hq⟩

/-- A running command with at most `n` steps left completes in at most `n` steps. -/
theorem completes_within (n : Nat) {s : State} (h : s.Inv) (hb : s.busy = true) (hq : s.hostSilent)
    (hn : s.stepsLeft ≤ n) : ∃ m t, m ≤ n ∧ s.run m = .next t ∧ t.busy = false ∧ t.done = true := by
  induction n generalizing s with
  | zero =>
    obtain ⟨t, -, m, -⟩ := step_running h hb hq
    exact absurd (stepsLeft_sequencerStep h m) (by omega)
  | succ n ih =>
    obtain ⟨t, e, m, silent⟩ := step_running h hb hq
    have lower := stepsLeft_sequencerStep h m
    rcases (sequencerFlags_of_step h m).status with ⟨busy, -, -⟩ | ⟨idle, done⟩
    · obtain ⟨j, u, hj, run, ends⟩ := ih (inv_sequencerStep h m) (busy.trans hb) silent (by omega)
      exact ⟨j + 1, u, by omega, (State.run_succ e).trans run, ends⟩
    · exact ⟨1, t, by omega, State.run_succ e, idle, done⟩

/-- Settles O17, by induction on the bound `State.stepsLeft`. -/
theorem everyCommandCompletes : Obligations.EveryCommandCompletes :=
  fun _ h hb hq => completes_within 2064 h hb hq (stepsLeft_le h)

end Sys2Proof.Machine
end

section
/-! What a reset does to the agents outside the block (70_reset_and_hazards.md R113, R114; 20_memory.md R50), and that a host
which waits for BUSY = 0 never meets the misuse lock (R117). -/

namespace Sys2Proof.Machine

/-! ### Reset -/

/-- Settles O11: a reset's step is `blockReset`, which ends the frame exactly where one is open. -/
theorem resetEndsAnOpenFrame : Obligations.ResetEndsAnOpenFrame := by
  intro s rest hs
  refine ⟨_, step_reset hs, rfl, rfl, rfl, fun ho => ?_, fun ho => ?_⟩
  · exact ⟨if_pos ho, if_pos ho⟩
  · simp [ho]

/-! ### A waiting host -/

/-- Either reset of the block clears MISUSE (R34). -/
theorem misuse_of_resetTurn {s t : State} (hr : s.resetTurn) (hs : step s = .next t) : t.misuse = false := by
  obtain ⟨rest, hq | hq⟩ := hr
  · cases hs.symm.trans (step_reset hq)
    rfl
  · cases hs.symm.trans (step_powerOn hq)
    rfl

/-- Settles O21: a reset clears MISUSE, and any other step that changes it takes a CMD write while BUSY = 1 (R23), which
the duty of R117 excludes. -/
theorem waitingHostNeverMisuses : Obligations.WaitingHostNeverMisuses := by
  intro s t h waits unlocked hs
  by_cases hr : s.resetTurn
  · exact misuse_of_resetTurn hr hs
  · obtain ⟨-, -, -, -, misuseChange, -⟩ := flagsChangeOnlyAsListed s t h hs hr
    by_contra hm
    obtain ⟨-, busy, k, w, rest, hk, hq⟩ := misuseChange (unlocked ▸ hm)
    exact absurd busy (by simp [waits k w rest hq hk])

end Sys2Proof.Machine
end
